-- ==== Sys2Proof/Word.lean ====
section
/-! DEFINITION. The widths of the block: 16-bit segment words and registers (00_scope.md R6), the 32-bit
command word (30_encoding.md R70), and the container of the digit-select chain, whose depth is at most 32 (R5). -/

namespace Sys2Proof

/-- A LogicalSegmentMask, a HardwareSegmentWord, the decimal-point mask's container, and the PWM period and
compare registers: 16 bits (00_scope.md R6; the PWM width is the spec's decision D6). -/
abbrev Word := BitVec 16

/-- A command word on the command port (30_encoding.md R70). -/
abbrev CommandWord := BitVec 32

/-- The container of `dig_sr` and `dig_latch`: DIGIT_DEPTH bits with DIGIT_DEPTH at most 32 (00_scope.md R5);
the bits above stay 0 (DESIGN CHOICE, log 8). -/
abbrev ChainBits := BitVec 32

end Sys2Proof
end

