-- ==== Sys2Proof/Syntax.lean ====
section
/-! DEFINITION. The seven commands (30_encoding.md R74), their mnemonics, and the assembler's lines with
operands as numbers (R79). -/

namespace Sys2Proof

/-- The mnemonics of the opcode map (30_encoding.md R74). -/
inductive Mnemonic
  | MAP | WRSEG | WRDP | SETBRT | SETFLAGS | SETSEP | ENOUT
  deriving DecidableEq, Repr

/-- The command inductive of 30_encoding.md R74, one constructor per row of opcode_table.json. -/
inductive Instr
  /-- MAP: query the remapper (R103). -/
  | map (m : Word)
  /-- WRSEG: write one display-buffer slot (R104). -/
  | wrseg (k : Fin 16) (m : Word)
  /-- WRDP: write one decimal-point bit (R105). -/
  | wrdp (k : Fin 16) (v : Bool)
  /-- SETBRT: set the brightness of the three channels (R161). -/
  | setbrt (l : BitVec 8)
  /-- SETFLAGS: set the AM and PM enables (R162). -/
  | setflags (am pm : Bool)
  /-- SETSEP: set the separator enable (R163). -/
  | setsep (v : Bool)
  /-- ENOUT: enable both banks' outputs (R145). -/
  | enout
  deriving DecidableEq, Repr

/-- The mnemonic of a command. -/
def Instr.mnemonic : Instr → Mnemonic
  | .map _ => .MAP
  | .wrseg _ _ => .WRSEG
  | .wrdp _ _ => .WRDP
  | .setbrt _ => .SETBRT
  | .setflags _ _ => .SETFLAGS
  | .setsep _ => .SETSEP
  | .enout => .ENOUT

/-- What the decoder answers on a word (30_encoding.md R75): a command, or `illegal(word)`. -/
inductive Decoded
  /-- The word is this command. -/
  | command (i : Instr)
  /-- The word matches no row. -/
  | illegal (w : CommandWord)
  deriving DecidableEq, Repr

/-- One line of assembly (30_encoding.md R79): the operands are numbers not yet checked against their ranges. -/
inductive AsmLine
  | map (m : Nat)
  | wrseg (k m : Nat)
  | wrdp (k v : Nat)
  | setbrt (l : Nat)
  | setflags (am pm : Bool)
  | setsep (v : Nat)
  | enout
  deriving DecidableEq, Repr

end Sys2Proof
end

