-- ==== Sys2Proof/WellFormed.lean ====
section
/-! DEFINITION. The checks on a command. `Instr` carries its operand widths in its types, so every `Instr` is
well-formed; what can be ill-formed is an assembler line (30_encoding.md R79) and, against a digit count, an
index (R72, 70_reset_and_hazards.md R204). The checks on a configuration are in Config.lean (00_scope.md R8). -/

namespace Sys2Proof

/-- The operand ranges an assembler enforces (30_encoding.md R79). The rule says only that it rejects an operand; the
names of the errors are the model's (DESIGN CHOICE, log 15). -/
inductive OperandError
  | maskTooWide | indexTooWide | bitTooWide | levelTooWide
  deriving DecidableEq, Repr

/-- The error an assembler reports for a line, if any: it "rejects these operands: m > 0xFFFF, k > 15, v > 1 and
l > 255" (30_encoding.md R79). An index of NDIGITS..15 is accepted. Where both operands of a line are out of range the
rule does not say what is reported: the model reports the index before the mask or the bit (DESIGN CHOICE, log 15). -/
def AsmLine.error : AsmLine → Option OperandError
  | .map m => if m > 0xFFFF then some .maskTooWide else none
  | .wrseg k m => if k > 15 then some .indexTooWide else if m > 0xFFFF then some .maskTooWide else none
  | .wrdp k v => if k > 15 then some .indexTooWide else if v > 1 then some .bitTooWide else none
  | .setbrt l => if l > 255 then some .levelTooWide else none
  | .setflags _ _ => none
  | .setsep v => if v > 1 then some .bitTooWide else none
  | .enout => none

/-- An assembler line is well-formed when the assembler reports no error on it. -/
abbrev AsmLine.wf (a : AsmLine) : Prop := a.error = none

/-- The Host's duty on a command word (70_reset_and_hazards.md R204): an index below the digit count. A command
that breaks it is well-formed all the same, and faults when it executes (30_encoding.md R72). -/
abbrev Instr.indexBelow (n : Nat) : Instr → Prop
  | .map _ => True
  | .wrseg k _ => k.val < n
  | .wrdp k _ => k.val < n
  | .setbrt _ => True
  | .setflags _ _ => True
  | .setsep _ => True
  | .enout => True

end Sys2Proof
end

