-- ==== Sys2Proof/Decode.lean ====
section
/-! DEFINITION. The encoding: the opcode map's rows (30_encoding.md R74), the fields (R71), the decoder, total on
every 32-bit word (R75 to R77), the encoder (R79), and the assembler of one line (R79). -/

namespace Sys2Proof

/-- A row of the opcode map: the bits that are fixed, and their values (30_encoding.md R74). -/
structure Row where
  /-- The fixed bits: the opcode and the reserved bits. -/
  mask : CommandWord
  /-- Their values. -/
  pattern : CommandWord
  deriving DecidableEq, Repr

/-- The opcode map of 30_encoding.md R74. -/
def Mnemonic.row : Mnemonic → Row
  | .MAP => ⟨0xFFFF0000, 0x10000000⟩
  | .WRSEG => ⟨0xFFF00000, 0x20000000⟩
  | .WRDP => ⟨0xFFF0FFFE, 0x30000000⟩
  | .SETBRT => ⟨0xFFFFFF00, 0x40000000⟩
  | .SETFLAGS => ⟨0xFFFFFFFC, 0x50000000⟩
  | .SETSEP => ⟨0xFFFFFFFE, 0x60000000⟩
  | .ENOUT => ⟨0xFFFFFFFF, 0x70000000⟩

/-- The rows in the order of the table. -/
def Mnemonic.all : List Mnemonic := [.MAP, .WRSEG, .WRDP, .SETBRT, .SETFLAGS, .SETSEP, .ENOUT]

/-- `(word & mask) = match` (30_encoding.md R75). -/
def Row.matchesWord (r : Row) (w : CommandWord) : Bool := w &&& r.mask == r.pattern

/-- `op`, bits 31..28 (30_encoding.md R71). -/
def opField (w : CommandWord) : BitVec 4 := w.extractLsb' 28 4

/-- `imm16`, bits 15..0 (30_encoding.md R71). -/
def imm16Field (w : CommandWord) : Word := w.extractLsb' 0 16

/-- `idx`, bits 19..16, read as a natural number 0..15 (30_encoding.md R72). -/
def idxField (w : CommandWord) : Fin 16 := (w.extractLsb' 16 4).toFin

/-- `lvl`, bits 7..0 (30_encoding.md R71). -/
def lvlField (w : CommandWord) : BitVec 8 := w.extractLsb' 0 8

/-- `am` and `v`, bit 0 (30_encoding.md R71). -/
def bit0Field (w : CommandWord) : Bool := w.getLsbD 0

/-- `pm`, bit 1 (30_encoding.md R71). -/
def bit1Field (w : CommandWord) : Bool := w.getLsbD 1

/-- The command that a word of this row spells: the fields of its format, unchanged and zero-extended
(30_encoding.md R71, R73). -/
def Mnemonic.instrOf (w : CommandWord) : Mnemonic → Instr
  | .MAP => .map (imm16Field w)
  | .WRSEG => .wrseg (idxField w) (imm16Field w)
  | .WRDP => .wrdp (idxField w) (bit0Field w)
  | .SETBRT => .setbrt (lvlField w)
  | .SETFLAGS => .setflags (bit0Field w) (bit1Field w)
  | .SETSEP => .setsep (bit0Field w)
  | .ENOUT => .enout

/-- Decoding, total on every 32-bit word (30_encoding.md R75): the command of the row the word matches, else
`illegal(word)` (R76, R77). Decoding reads no state and no configuration. -/
def decode (w : CommandWord) : Decoded :=
  match Mnemonic.all.find? fun o => o.row.matchesWord w with
  | some o => .command (o.instrOf w)
  | none => .illegal w

/-- A bit as a command-word field at position 0. -/
def bitField (b : Bool) : CommandWord := (BitVec.ofBool b).setWidth 32

/-- The encoder, written from the assembly table of 30_encoding.md R79. -/
def encode : Instr → CommandWord
  | .map m => 0x10000000#32 ||| m.setWidth 32
  | .wrseg k m => 0x20000000#32 ||| (BitVec.ofNat 32 k.val <<< 16) ||| m.setWidth 32
  | .wrdp k v => 0x30000000#32 ||| (BitVec.ofNat 32 k.val <<< 16) ||| bitField v
  | .setbrt l => 0x40000000#32 ||| l.setWidth 32
  | .setflags am pm => 0x50000000#32 ||| (bitField pm <<< 1) ||| bitField am
  | .setsep v => 0x60000000#32 ||| bitField v
  | .enout => 0x70000000#32

/-- The command of an assembler line whose operands are in range (30_encoding.md R79); an operand out of range is
reduced to its field, and `assemble` never asks for that. -/
def AsmLine.instr : AsmLine → Instr
  | .map m => .map (BitVec.ofNat 16 m)
  | .wrseg k m => .wrseg (Fin.ofNat 16 k) (BitVec.ofNat 16 m)
  | .wrdp k v => .wrdp (Fin.ofNat 16 k) (v == 1)
  | .setbrt l => .setbrt (BitVec.ofNat 8 l)
  | .setflags am pm => .setflags am pm
  | .setsep v => .setsep (v == 1)
  | .enout => .enout

/-- Assembling one line: the command word, or the operand error the assembler reports (30_encoding.md R79). -/
def AsmLine.assemble (a : AsmLine) : Except OperandError CommandWord :=
  match a.error with
  | some e => .error e
  | none => .ok (encode a.instr)

/-- The command in a table word: bit 0 is the least significant bit of the one 32-bit command word, which is taken
whole and has no byte order (20_memory.md R55; DESIGN CHOICE, log 11). Bits above `nbits` are 0; a value that is no 32-bit word
spells no command. -/
def decodeTableWord (nbits w : Nat) : Option Instr :=
  if w % 2 ^ nbits < 2 ^ 32 then
    match decode (BitVec.ofNat 32 (w % 2 ^ nbits)) with
    | .command i => some i
    | .illegal _ => none
  else none

end Sys2Proof
end

