-- ==== Sys2Proof/Config.lean ====
section
/-! DEFINITION. The implementation parameters (00_scope.md R5), their four named checks (R8), the board's
configuration with its open parameters opaque, and the free draw of a Reset (70_reset_and_hazards.md R200). -/

namespace Sys2Proof

/-- The parameters of 00_scope.md R5 that the block reads. FONT and TERMINATOR belong to POPULATE alone and are
its arguments (DESIGN CHOICE, log 12). PERM and BRT_TABLE are tables, not functions, so that a configuration is plain data. -/
structure Params where
  /-- NDIGITS, the number of digits. -/
  ndigits : Nat
  /-- DIGIT_DEPTH, the length of the digit-select chain. -/
  digitDepth : Nat
  /-- PERM: entry `i` is the hardware bit that carries logical bit `i` (R7). -/
  perm : Vector (Fin 16) 16
  /-- BRT_TABLE: the eight compare values. -/
  brtTable : Vector Word 8
  /-- PWM_PERIOD. -/
  pwmPeriod : Word
  deriving DecidableEq, Repr

/-- The four named checks of 00_scope.md R8. -/
inductive ConfigCheck
  | ndigitsRange | depthRange | permBijective | tableStrict
  deriving DecidableEq, Repr

/-- `ndigits_range`. -/
abbrev Params.ndigitsRange (p : Params) : Prop := 1 ≤ p.ndigits ∧ p.ndigits ≤ 16

/-- `depth_range`. -/
abbrev Params.depthRange (p : Params) : Prop := p.ndigits ≤ p.digitDepth ∧ p.digitDepth ≤ 32

/-- `perm_bijective`: PERM is injective on Fin 16. -/
abbrev Params.permBijective (p : Params) : Prop := ∀ i j : Fin 16, p.perm[i] = p.perm[j] → i = j

/-- `table_strict`: each entry is below the next (unsigned). -/
abbrev Params.tableStrict (p : Params) : Prop := ∀ i : Fin 7, p.brtTable[i.castSucc] < p.brtTable[i.succ]

/-- A configuration is well-formed iff all four checks pass (00_scope.md R8). -/
abbrev Params.wf (p : Params) : Prop :=
  p.ndigitsRange ∧ p.depthRange ∧ p.permBijective ∧ p.tableStrict

/-- For an ill-formed configuration: the first check, in the order of R8, that it fails (DESIGN CHOICE, log 3). -/
def Params.firstFailing (p : Params) : ConfigCheck :=
  if ¬ p.ndigitsRange then .ndigitsRange
  else if ¬ p.depthRange then .depthRange
  else if ¬ p.permBijective then .permBijective
  else .tableStrict

/-- A well-formed configuration: "the model is defined only for well-formed configurations" (00_scope.md R8). -/
structure Config extends Params where
  /-- The four checks pass. -/
  wf : toParams.wf
  deriving DecidableEq, Repr

/-- What the source leaves OPEN on this board (D3, D4, D5, D7), with what it does say of it: the depth is above 13
and at most 32, the permutation is a bijection, the table strictly increases. The default values only show that
the type is not empty: no proof can see a value of `Config.boardOpen`. -/
structure BoardOpen where
  /-- DIGIT_DEPTH of the board. -/
  digitDepth : Nat := 16
  /-- PERM of the board. -/
  perm : Vector (Fin 16) 16 := #v[3, 8, 13, 2, 7, 12, 1, 6, 11, 0, 5, 10, 15, 4, 9, 14]
  /-- BRT_TABLE of the board. -/
  brtTable : Vector Word 8 := #v[0, 18, 57, 131, 251, 428, 674, 1000]
  /-- PWM_PERIOD of the board. -/
  pwmPeriod : Word := 1000
  /-- The chain is wider than its 13 used positions (41_shift_register_driver.md R129). -/
  wider : 13 < digitDepth ∧ digitDepth ≤ 32 := by decide
  /-- PERM is a bijection. -/
  bijective : ∀ i j : Fin 16, perm[i] = perm[j] → i = j := by decide
  /-- BRT_TABLE strictly increases. -/
  strict : ∀ i : Fin 7, brtTable[i.castSucc] < brtTable[i.succ] := by decide
  deriving DecidableEq, Repr, Inhabited

/-- The board's open parameters: a free value, nothing constrains it but its type (DESIGN CHOICE, log 2). -/
opaque Config.boardOpen : BoardOpen

/-- The board's configuration: NDIGITS = 13 (00_scope.md R2), the rest open. -/
def Config.board : Config where
  ndigits := 13
  digitDepth := Config.boardOpen.digitDepth
  perm := Config.boardOpen.perm
  brtTable := Config.boardOpen.brtTable
  pwmPeriod := Config.boardOpen.pwmPeriod
  wf := ⟨⟨by decide, by decide⟩, ⟨Nat.le_of_lt Config.boardOpen.wider.1, Config.boardOpen.wider.2⟩,
    Config.boardOpen.bijective, Config.boardOpen.strict⟩

/-- The illustrative configuration EX of 95_test_vectors.md section 2, for tests: not the board's values. -/
def Config.illustrative : Config where
  ndigits := 13
  digitDepth := 16
  perm := #v[3, 8, 13, 2, 7, 12, 1, 6, 11, 0, 5, 10, 15, 4, 9, 14]
  brtTable := #v[0, 18, 57, 131, 251, 428, 674, 1000]
  pwmPeriod := 1000
  wf := by decide

/-- The elements that Reset leaves at "any value" (70_reset_and_hazards.md R200), drawn together. -/
structure ResetDraw where
  /-- The draw for `seg_sr`. -/
  segSr : Word
  /-- The draw for `seg_latch`. -/
  segLatch : Word
  /-- The draw for `dig_sr`, before it is cut to DIGIT_DEPTH bits. -/
  digSr : ChainBits
  /-- The draw for `dig_latch`, before it is cut to DIGIT_DEPTH bits. -/
  digLatch : ChainBits
  /-- The draw for `data_line`. -/
  dataLine : Bool
  /-- The draw for `dp_line_n`. -/
  dpLineN : Bool
  deriving DecidableEq, Repr, Inhabited

/-- The free draw of the `n`-th Reset: nothing constrains it (93_implementation_defined.md item 1; DESIGN CHOICE, log 7). -/
opaque Config.resetDraw : Nat → ResetDraw

end Sys2Proof
end

