-- ==== Sys2Proof/Machine/Bits.lean ====
section
/-! DEFINITION. The bit primitives of 00_scope.md R11: one-hot values, single-bit reads and writes, counting. -/

namespace Sys2Proof.Machine

/-- The low `d` bits set: the positions a chain of depth `d` has. -/
def lowMask (d : Nat) : ChainBits := BitVec.ofNat 32 (2 ^ d - 1)

/-- `onehot_d(k)`: bit `k` set and every other bit clear, and 0 when `k >= d` (00_scope.md R11). -/
def onehot (d k : Nat) : ChainBits := if k < d then 1#32 <<< k else 0#32

/-- `zext_n(b)` of one bit. -/
def zextBit (n : Nat) (b : Bool) : BitVec n := (BitVec.ofBool b).setWidth n

/-- `v[k] <- b`, the other bits unchanged. -/
def writeBit (v : Word) (k : Nat) (b : Bool) : Word := (v &&& ~~~(1#16 <<< k)) ||| (zextBit 16 b <<< k)

/-- The 16-bit value that has bit `bit i` at position `pos i`: the OR over i in 0..15 of
`zext_16(bit i) << pos i`, as the remapper's rules write it (40_segment_mapper.md R101). -/
def orBits (bit : Fin 16 → Bool) (pos : Fin 16 → Fin 16) : Word :=
  (List.finRange 16).foldl (fun acc i => acc ||| (zextBit 16 (bit i) <<< (pos i).val)) 0

/-- `popcount(v)`: the number of set bits of a 16-bit value. -/
def popcount (v : Word) : Nat := (List.range 16).countP fun j => v.getLsbD j

end Sys2Proof.Machine
end

