-- ==== Sys2Proof/Machine/State.lean ====
section
/-! DEFINITION. The state of the block (10_state.md R21 to R37), the reasons a step can stop, and the state right
after Reset (70_reset_and_hazards.md R200). -/

namespace Sys2Proof.Machine

/-- The fault record (60_exceptions.md R180): the spec's own state, kept in `State.fault`. -/
inductive FaultRecord
  /-- A word that decodes to `illegal(word)`; the recorded info is the word. -/
  | illegalCommand (w : CommandWord)
  /-- WRSEG or WRDP with `idx >= NDIGITS`; the recorded info is the mnemonic and the 4-bit index. -/
  | indexOutOfRange (op : Mnemonic) (k : Fin 16)
  deriving DecidableEq, Repr

/-- One agent's turn (00_scope.md R9): which agent steps next, and the word when it is the Host. -/
inductive Turn
  /-- The Host issues a command word. -/
  | command (w : CommandWord)
  /-- The TickSource raises the tick. -/
  | tick
  /-- The Scanner performs SCAN. -/
  | scan
  /-- The Reset agent resets the block. -/
  | reset
  deriving DecidableEq, Repr

/-- The state: one field per element of 10_state.md, then the model's own three (`cfg`, `schedule`, `drawCount`).
A one-bit element is a Bool: 1 is true (00_scope.md R13). -/
structure State where
  /-- `buf`: the NDIGITS hardware words of the display buffer (R21). -/
  buf : List Word
  /-- `dp`: the decimal-point mask; bits NDIGITS..15 stay 0 (R22). -/
  dp : Word
  /-- `idx`: the digit the next SCAN selects (R23). -/
  idx : Nat
  /-- `tick_pending` (R24). -/
  tickPending : Bool
  /-- `seg_sr`: the segment chain's shift stages (R25). -/
  segSr : Word
  /-- `seg_latch`: the segment output latch, active-low (R26). -/
  segLatch : Word
  /-- `dig_sr`: the digit chain's shift stages, DIGIT_DEPTH bits (R27). -/
  digSr : ChainBits
  /-- `dig_latch`: the digit-select output latch, DIGIT_DEPTH bits (R28). -/
  digLatch : ChainBits
  /-- `data_line`: the serial data line both chains share (R29). -/
  dataLine : Bool
  /-- `sink_en`: the digit sink enable (R30). -/
  sinkEn : Bool
  /-- `dp_line_n`: the decimal-point line, active-low (R31). -/
  dpLineN : Bool
  /-- `oe_dig`: output enable of the digit bank (R32). -/
  oeDig : Bool
  /-- `oe_seg`: output enable of the segment bank (R32). -/
  oeSeg : Bool
  /-- `pwm_period` (R33). -/
  pwmPeriod : Word
  /-- `cmp_am` (R34). -/
  cmpAm : Word
  /-- `cmp_pm` (R34). -/
  cmpPm : Word
  /-- `cmp_sep` (R34). -/
  cmpSep : Word
  /-- `en_am` (R35). -/
  enAm : Bool
  /-- `en_pm` (R35). -/
  enPm : Bool
  /-- `en_sep` (R35). -/
  enSep : Bool
  /-- `resp`: the command response port (R36). -/
  resp : Option Word
  /-- `fault`: the sticky fault record (R37). -/
  fault : Option FaultRecord
  /-- The configuration; no step writes it (00_scope.md R5; DESIGN CHOICE, log 1). -/
  cfg : Config
  /-- The turns still to come; the agents' free order as data (20_memory.md R58; DESIGN CHOICE, log 4). -/
  schedule : List Turn
  /-- How many Reset draws have been taken (DESIGN CHOICE, log 7). -/
  drawCount : Nat
  deriving DecidableEq, Repr

/-- The reasons the machine stops with a fault. The faults of 60_exceptions.md R180 are none of these: they are
recorded in `State.fault` by a next state (DEDUCED, log 9). -/
inductive Fault
  /-- Raised by every command executed in a faulted state: "the Host, TickSource and Scanner agents have no step"
  (60_exceptions.md R182). Safe: nothing can be concluded about a step that does not exist (DEDUCED, log 10). -/
  | frozen (r : FaultRecord)
  /-- Raised by SCAN when the buffer has no slot `k`: an index outside the index space (20_memory.md R50). Only in
  states that no run reaches, since `idx < NDIGITS` (10_state.md R23). Safe: the machine stops (DESIGN CHOICE, log 8). -/
  | noSuchSlot (k : Nat)
  deriving DecidableEq, Repr

/-- The reasons for a refusal. -/
inductive Refusal
  /-- Raised by an arm of `exec` whose instruction has no meaning yet; no arm does. Safe. -/
  | notModelled (mnemonic : String)
  /-- Raised by `boot` on an ill-formed configuration, with the failing check (00_scope.md R8, D38). Safe. -/
  | illFormedConfiguration (check : ConfigCheck)
  deriving DecidableEq, Repr

/-- The state right after a Reset (70_reset_and_hazards.md R200) with configuration `c`, the draw `d` for the
elements left at "any value", and the turns still to come. The chain draws are cut to DIGIT_DEPTH bits. -/
def State.afterReset (c : Config) (d : ResetDraw) (schedule : List Turn) (drawCount : Nat) : State where
  buf := List.replicate c.ndigits 0xFFFF#16
  dp := 0
  idx := 0
  tickPending := false
  segSr := d.segSr
  segLatch := d.segLatch
  digSr := d.digSr &&& lowMask c.digitDepth
  digLatch := d.digLatch &&& lowMask c.digitDepth
  dataLine := d.dataLine
  sinkEn := false
  dpLineN := d.dpLineN
  oeDig := false
  oeSeg := false
  pwmPeriod := 0
  cmpAm := 0
  cmpPm := 0
  cmpSep := 0
  enAm := false
  enPm := false
  enSep := false
  resp := none
  fault := none
  cfg := c
  schedule := schedule
  drawCount := drawCount

/-- The machine right after power-up: Reset on the board's configuration, draw 0, no turn scheduled (DESIGN CHOICE, log 4, log 7). -/
def State.reset : State := State.afterReset Config.board (Config.resetDraw 0) [] 1

end Sys2Proof.Machine
end

