-- ==== Sys2Proof/Machine/Flags.lean ====
section
/-! DEFINITION. The block has no condition codes (10_state.md R20). Its flags are `tick_pending` and the sticky
fault, which decide which agents have a step (60_exceptions.md R182, 42_scan_controller.md R141). -/

namespace Sys2Proof.Machine

/-- A faulted state: only Reset has a step (60_exceptions.md R182). -/
def State.frozen (s : State) : Bool := s.fault.isSome

/-- SCAN is enabled iff `tick_pending = 1` and `fault = none` (42_scan_controller.md R141), whatever the output
enables (D22). -/
def State.scanEnabled (s : State) : Bool := s.tickPending && !s.frozen

/-- Which agents have a step: the Host and the TickSource while there is no fault, the Scanner as R141 says, Reset
always (60_exceptions.md R182, 42_scan_controller.md R140, R141, 70_reset_and_hazards.md R200). -/
def Turn.enabled (s : State) : Turn → Bool
  | .command _ => !s.frozen
  | .tick => !s.frozen
  | .scan => s.scanEnabled
  | .reset => true

/-- The level of the active-low decimal-point line for an enable bit: `1 - d` (42_scan_controller.md R142 step 5). -/
def dpLevel (d : Bool) : Bool := !d

end Sys2Proof.Machine
end

