-- ==== Sys2Proof/Machine/Operands.lean ====
section
/-! DEFINITION. What the commands make of their operands: the segment remapper (40_segment_mapper.md R100 to R106),
the index check (30_encoding.md R72), and the level clamp with its table (43_brightness.md R160). -/

namespace Sys2Proof.Machine

/-- The named segments of a LogicalSegmentMask (40_segment_mapper.md R100). -/
inductive Segment
  | A | B | C | D | E | F | G | H | K | M | N | P | R | S | T | U
  deriving DecidableEq, Repr

/-- The logical bit of a segment, in the listed order (40_segment_mapper.md R100, the spec's decision D2). -/
def Segment.bit : Segment → Fin 16
  | .A => 0 | .B => 1 | .C => 2 | .D => 3 | .E => 4 | .F => 5 | .G => 6 | .H => 7
  | .K => 8 | .M => 9 | .N => 10 | .P => 11 | .R => 12 | .S => 13 | .T => 14 | .U => 15

/-- The mask that lights the listed segments (bit = 1 means lit, R100). -/
def maskOf (segments : List Segment) : Word := segments.foldl (fun m g => m ||| (1#16 <<< g.bit.val)) 0

/-- `permute(x)`: the OR over i of `zext_16(x[i]) << PERM[i]` (40_segment_mapper.md R101), bit by bit from PERM
and not a table of precomputed words (R102). -/
def permute (c : Config) (x : Word) : Word := orBits (fun i => x.getLsbD i.val) fun i => c.perm[i]

/-- `toHardwareOrder(x) = ~permute(x)` (40_segment_mapper.md R101). -/
def toHardwareOrder (c : Config) (x : Word) : Word := ~~~(permute c x)

/-- `fromHardwareOrder(w)[i] = 1 - w[PERM[i]]` (40_segment_mapper.md R106). -/
def fromHardwareOrder (c : Config) (w : Word) : Word := orBits (fun i => !w.getLsbD c.perm[i].val) id

/-- The index check, made when the command executes (30_encoding.md R72): `k < NDIGITS`. -/
def indexInRange (c : Config) (k : Fin 16) : Bool := decide (k.val < c.ndigits)

/-- `clamp(l) = min(l, 7)` (43_brightness.md R160). -/
def clampLevel (l : BitVec 8) : Fin 8 := ⟨min l.toNat 7, Nat.lt_of_le_of_lt (Nat.min_le_right _ _) (by decide)⟩

/-- `brightnessCompare(l) = BRT_TABLE[clamp(l)]` (43_brightness.md R160). -/
def brightnessCompare (c : Config) (l : BitVec 8) : Word := c.brtTable[clampLevel l]

end Sys2Proof.Machine
end

