-- ==== Sys2Proof/Machine/Ops.lean ====
section
/-! DEFINITION. The shared operations: reading and writing the display buffer and its decimal-point mask
(00_scope.md R12, 20_memory.md R52), responding (10_state.md R36), raising a fault (60_exceptions.md R181), and
the frame of a command step (R182). -/

namespace Sys2Proof.Machine

/-- The form the display buffer keeps: NDIGITS slots (10_state.md R21), and no decimal-point bit at or above NDIGITS
(R22, D33). It is this block's `Memory.wf`: the block has no addressed memory (20_memory.md R50). -/
abbrev Memory.wf (c : Config) (buf : List Word) (dp : Word) : Prop :=
  buf.length = c.ndigits ∧ dp.toNat < 2 ^ c.ndigits

/-- `BufRead(k) = buf[k]` (00_scope.md R12); none when the buffer has no slot `k`. -/
def bufRead (s : State) (k : Nat) : Option Word := s.buf[k]?

/-- `BufWrite(k, w): buf[k] <- w` (00_scope.md R12), one whole slot (20_memory.md R52). -/
def bufWrite (s : State) (k : Nat) (w : Word) : State := { s with buf := s.buf.set k w }

/-- Reads one decimal-point bit (20_memory.md R52). -/
def dpRead (s : State) (k : Nat) : Bool := s.dp.getLsbD k

/-- `dp[k] <- v`, one bit (40_segment_mapper.md R105). -/
def dpWrite (s : State) (k : Nat) (v : Bool) : State := { s with dp := writeBit s.dp k v }

/-- `respond(v)`: places `v` on the command response port (00_scope.md R12). -/
def respond (v : Word) (s : State) : State := { s with resp := some v }

/-- `resp <- none`: every command but MAP (10_state.md R36). -/
def respondNone (s : State) : State := { s with resp := none }

/-- Recording a fault (60_exceptions.md R181): `fault <- some(record)`, `resp <- none`, and no other write. It is
the block's only entry into a fault; there is no handler and no return (R187), and only Reset clears the record
(R183, `resetStep`). -/
def raiseFault (r : FaultRecord) (s : State) : State := { s with fault := some r, resp := none }

/-- A Host step with the given effect: it exists only while there is no fault (60_exceptions.md R182); every
command is available in every other state (R188). -/
def commandStep (s : State) (effect : State → State) : Host.Outcome State Fault Refusal :=
  match s.fault with
  | some r => .fault (.frozen r)
  | none => .next (effect s)

/-- The index check of WRSEG and WRDP (40_segment_mapper.md R104, R105): an index of NDIGITS or more raises
IndexOutOfRange and writes nothing else. -/
def withIndex (op : Mnemonic) (k : Fin 16) (write : State → State) (s : State) : State :=
  if indexInRange s.cfg k then write s else raiseFault (.indexOutOfRange op k) s

/-- Executing `illegal(word)`: IllegalCommand(word) (30_encoding.md R77). -/
def execIllegal (w : CommandWord) (s : State) : Host.Outcome State Fault Refusal :=
  commandStep s (raiseFault (.illegalCommand w))

end Sys2Proof.Machine
end

