-- ==== Sys2Proof/Machine/Brightness.lean ====
section
/-! DEFINITION. The brightness commands SETBRT, SETFLAGS and SETSEP (43_brightness.md R161 to R163). -/

namespace Sys2Proof.Machine

/-- The period register and the three compare registers, all with the same compare value (43_brightness.md R161). -/
def programChannels (c : Word) (s : State) : State :=
  { s with pwmPeriod := s.cfg.pwmPeriod, cmpAm := c, cmpPm := c, cmpSep := c }

/-- SETBRT: the table entry of the clamped level into the three channels, and the period (43_brightness.md R161). -/
def execSetbrt (l : BitVec 8) (s : State) : Host.Outcome State Fault Refusal :=
  commandStep s fun s => respondNone (programChannels (brightnessCompare s.cfg l) s)

/-- SETFLAGS: `en_am <- am; en_pm <- pm` (43_brightness.md R162). -/
def execSetflags (am pm : Bool) (s : State) : Host.Outcome State Fault Refusal :=
  commandStep s fun s => respondNone { s with enAm := am, enPm := pm }

/-- SETSEP: `en_sep <- v` (43_brightness.md R163). -/
def execSetsep (v : Bool) (s : State) : Host.Outcome State Fault Refusal :=
  commandStep s fun s => respondNone { s with enSep := v }

end Sys2Proof.Machine
end

