-- ==== Sys2Proof/Machine/Buffer.lean ====
section
/-! DEFINITION. The display-buffer commands MAP, WRSEG and WRDP (40_segment_mapper.md R103 to R105). -/

namespace Sys2Proof.Machine

/-- MAP: `resp <- some(toHardwareOrder(m))`, and nothing else (40_segment_mapper.md R103). -/
def execMap (m : Word) (s : State) : Host.Outcome State Fault Refusal :=
  commandStep s fun s => respond (toHardwareOrder s.cfg m) s

/-- WRSEG: `buf[k] <- toHardwareOrder(m); resp <- none`, or IndexOutOfRange (40_segment_mapper.md R104). -/
def execWrseg (k : Fin 16) (m : Word) (s : State) : Host.Outcome State Fault Refusal :=
  commandStep s (withIndex .WRSEG k fun s => respondNone (bufWrite s k.val (toHardwareOrder s.cfg m)))

/-- WRDP: `dp[k] <- v; resp <- none`, or IndexOutOfRange (40_segment_mapper.md R105). -/
def execWrdp (k : Fin 16) (v : Bool) (s : State) : Host.Outcome State Fault Refusal :=
  commandStep s (withIndex .WRDP k fun s => respondNone (dpWrite s k.val v))

end Sys2Proof.Machine
end

