-- ==== Sys2Proof/Machine/Chains.lean ====
section
/-! DEFINITION. The two shift-register chains: the seven micro-operations (41_shift_register_driver.md R120 to R127)
and the shift procedures made of them (R128, R129). Micro-operations are no commands: only SCAN issues them. -/

namespace Sys2Proof.Machine

/-- The seven micro-operations (41_shift_register_driver.md R120). -/
inductive MicroOp
  | setData (b : Bool)
  | pulseSegShift
  | pulseSegStore
  | pulseDigShift
  | pulseDigStore
  | setSink (b : Bool)
  | setDP (b : Bool)
  deriving DecidableEq, Repr

/-- One pulse of the segment shift clock on stages `v` with the data line at `b` (41_shift_register_driver.md R122). -/
def segShifted (v : Word) (b : Bool) : Word := (v <<< 1) ||| zextBit 16 b

/-- One pulse of the digit shift clock, modulo 2^DIGIT_DEPTH (41_shift_register_driver.md R124). -/
def digShifted (depth : Nat) (v : ChainBits) (b : Bool) : ChainBits := ((v <<< 1) ||| zextBit 32 b) &&& lowMask depth

/-- The state transition of a micro-operation (41_shift_register_driver.md R121 to R127). -/
def microStep : MicroOp → State → State
  | .setData b, s => { s with dataLine := b }
  | .pulseSegShift, s => { s with segSr := segShifted s.segSr s.dataLine }
  | .pulseSegStore, s => { s with segLatch := s.segSr }
  | .pulseDigShift, s => { s with digSr := digShifted s.cfg.digitDepth s.digSr s.dataLine }
  | .pulseDigStore, s => { s with digLatch := s.digSr }
  | .setSink b, s => { s with sinkEn := b }
  | .setDP b, s => { s with dpLineN := b }

/-- Runs micro-operations in order. -/
def runMicro : List MicroOp → State → State
  | [], s => s
  | o :: os, s => runMicro os (microStep o s)

/-- The states at every boundary between two micro-operations, the first and the last included
(41_shift_register_driver.md R120). -/
def microTrace : List MicroOp → State → List State
  | [], s => [s]
  | o :: os, s => s :: microTrace os (microStep o s)

/-- `for j = n-1 down to 0: SetData(w[j]); PulseSegShift`. -/
def shiftSegFrom (w : Word) : Nat → List MicroOp
  | 0 => []
  | j + 1 => .setData (w.getLsbD j) :: .pulseSegShift :: shiftSegFrom w j

/-- `ShiftSegWord(w)`: 16 pulses, bit 15 first (41_shift_register_driver.md R128). -/
def shiftSegWord (w : Word) : List MicroOp := shiftSegFrom w 16

/-- `for p = n-1 down to 0: SetData(1 if p = k else 0); PulseDigShift`. -/
def shiftDigitFrom (k : Nat) : Nat → List MicroOp
  | 0 => []
  | p + 1 => .setData (decide (p = k)) :: .pulseDigShift :: shiftDigitFrom k p

/-- `ShiftDigitSelect(k)`: DIGIT_DEPTH pulses, one per register position (41_shift_register_driver.md R129). -/
def shiftDigitSelect (depth k : Nat) : List MicroOp := shiftDigitFrom k depth

end Sys2Proof.Machine
end

