-- ==== Sys2Proof/Machine/ScanController.lean ====
section
/-! DEFINITION. The scan controller: the tick (42_scan_controller.md R140), SCAN with its instants (R142, R147), and
the ENOUT command (R145). -/

namespace Sys2Proof.Machine

/-- The TickSource's step: `tick_pending <- 1`; a tick raised while one is pending is lost (R140). -/
def tickStep (s : State) : State := { s with tickPending := true }

/-- The one snapshot a SCAN takes: the digit, its word and its decimal-point bit (R142 step 2). -/
structure Snapshot where
  /-- The digit. -/
  k : Nat
  /-- Its hardware word. -/
  w : Word
  /-- Its decimal-point bit. -/
  d : Bool
  deriving DecidableEq, Repr

/-- `k <- idx; w <- buf[k]; d <- dp[k]` (R142 step 2). -/
def takeSnapshot (s : State) : Option Snapshot := (bufRead s s.idx).map fun w => ⟨s.idx, w, dpRead s s.idx⟩

/-- Step 1: `tick_pending <- 0`. -/
def acknowledge (s : State) : State := { s with tickPending := false }

/-- Step 9: `idx <- (k + 1) mod NDIGITS`. -/
def advanceIndex (k : Nat) (s : State) : State := { s with idx := (k + 1) % s.cfg.ndigits }

/-- Steps 3 to 8 of R142: the segment word while the old digit is still lit, then the sink off, the decimal point,
the digit select, the two stores, and the sink on. -/
def scanOps (depth : Nat) (sn : Snapshot) : List MicroOp :=
  shiftSegWord sn.w ++ (.setSink false :: .setDP (dpLevel sn.d) :: shiftDigitSelect depth sn.k) ++
    [.pulseSegStore, .pulseDigStore, .setSink true]

/-- The state after steps 1 to 8. -/
def driven (sn : Snapshot) (s : State) : State := runMicro (scanOps s.cfg.digitDepth sn) (acknowledge s)

/-- SCAN, one digit update (R142), as one step (R147 way (a)). -/
def scanStep (s : State) : Host.Outcome State Fault Refusal :=
  match takeSnapshot s with
  | some sn => .next (advanceIndex sn.k (driven sn s))
  | none => .fault (.noSuchSlot s.idx)

/-- The instants of a SCAN (R147): the state before it, the state after step 2, every boundary between two
micro-operations, and the end state. -/
def scanInstants (s : State) : List State :=
  match takeSnapshot s with
  | some sn => s :: microTrace (scanOps s.cfg.digitDepth sn) (acknowledge s) ++ [advanceIndex sn.k (driven sn s)]
  | none => [s]

/-- ENOUT: `oe_dig <- 1; oe_seg <- 1; resp <- none` (R145). -/
def execEnout (s : State) : Host.Outcome State Fault Refusal :=
  commandStep s fun s => respondNone { s with oeDig := true, oeSeg := true }

end Sys2Proof.Machine
end

