-- ==== Sys2Proof/Machine/Dispatch.lean ====
section
/-! DEFINITION. One arm per command: the Host's step on a decoded command. -/

namespace Sys2Proof.Machine

def exec (i : Instr) (s : State) : Host.Outcome State Fault Refusal :=
  match i with
  -- display buffer (40_segment_mapper.md)
  | .map m => Sys2Proof.Machine.execMap m s
  | .wrseg k m => Sys2Proof.Machine.execWrseg k m s
  | .wrdp k v => Sys2Proof.Machine.execWrdp k v s
  -- brightness (43_brightness.md)
  | .setbrt l => Sys2Proof.Machine.execSetbrt l s
  | .setflags am pm => Sys2Proof.Machine.execSetflags am pm s
  | .setsep v => Sys2Proof.Machine.execSetsep v s
  -- output enable (42_scan_controller.md)
  | .enout => Sys2Proof.Machine.execEnout s

end Sys2Proof.Machine
end

