-- ==== Sys2Proof/Machine/Agents.lean ====
section
/-! DEFINITION. The agents' turns (00_scope.md R9): the Host's command word through the decoder, the tick, SCAN and
Reset; a turn whose agent has no step; the turn taken when none is scheduled; and power-up. -/

namespace Sys2Proof.Machine

/-- The Reset agent's step (70_reset_and_hazards.md R200): every element at its reset value, the "any value"
elements at the next free draw (DESIGN CHOICE, log 7). Enabled in every state, faulted or not; it alone clears a fault. -/
def resetStep (s : State) : State :=
  State.afterReset s.cfg (Config.resetDraw s.drawCount) s.schedule (s.drawCount + 1)

/-- The Host's step on a command word: decoding comes first (60_exceptions.md R184), then the command executes. -/
def commandTurn (w : CommandWord) (s : State) : Host.Outcome State Fault Refusal :=
  match decode w with
  | .command i => exec i s
  | .illegal w => execIllegal w s

/-- An enabled agent's step. -/
def agentStep (t : Turn) (s : State) : Host.Outcome State Fault Refusal :=
  match t with
  | .command w => commandTurn w s
  | .tick => .next (tickStep s)
  | .scan => scanStep s
  | .reset => .next (resetStep s)

/-- A scheduled turn: the agent's step if it is enabled, else the turn passes and nothing changes (DESIGN CHOICE, log 5). -/
def turnStep (t : Turn) (s : State) : Host.Outcome State Fault Refusal :=
  if t.enabled s then agentStep t s else .next s

/-- No turn is scheduled: an enabled SCAN is taken (70_reset_and_hazards.md R212), else the block idles
(42_scan_controller.md R146; DESIGN CHOICE, log 6). -/
def idleStep (s : State) : Host.Outcome State Fault Refusal := turnStep .scan s

/-- Putting a command word where the next step reads one: the first turn of the schedule, the Host's. -/
def issue (w : CommandWord) (s : State) : State := { s with schedule := .command w :: s.schedule }

/-- Power-up with a given configuration: refused by the name of the failing check when it is ill-formed
(00_scope.md R8, R10, D38), else the state after Reset with draw 0. -/
def boot (p : Params) (schedule : List Turn) : Host.Outcome State Fault Refusal :=
  if h : p.wf then .next (State.afterReset ⟨p, h⟩ (Config.resetDraw 0) schedule 1)
  else .refused (.illFormedConfiguration p.firstFailing)

end Sys2Proof.Machine
end

