-- ==== Sys2Proof/Machine/Step.lean ====
section
/-! DEFINITION. One step: the next scheduled agent's turn (00_scope.md R9). -/

namespace Sys2Proof.Machine

/-- One step of the block: the first turn of the schedule is taken off and performed; with none left, the Scanner's
own turn (DESIGN CHOICE, log 4, log 6). -/
def step (s : State) : Host.Outcome State Fault Refusal :=
  match s.schedule with
  | [] => idleStep s
  | t :: rest => turnStep t { s with schedule := rest }

/-- The command word `w` (its low `nbits` bits) as the next turn, the Host's: the block fetches nothing, its
commands are presented on the command port (10_state.md R20, 30_encoding.md R70; DESIGN CHOICE, log 4, log 11). -/
def State.withFetchWord (s : State) (nbits w : Nat) : State := issue (BitVec.ofNat 32 (w % 2 ^ nbits)) s

end Sys2Proof.Machine
end

