-- ==== Sys2Proof/Machine/Outputs.lean ====
section
/-! DEFINITION. What is seen from outside: the output functions (41_shift_register_driver.md R131) and the channel
outputs (43_brightness.md R164). -/

namespace Sys2Proof.Machine

/-- `digitOn(p)`: `oe_dig = 1`, `sink_en = 1` and `dig_latch[p] = 1`, for a digit `p < NDIGITS`. -/
def digitOn (s : State) (p : Nat) : Bool :=
  decide (p < s.cfg.ndigits) && s.oeDig && s.sinkEn && s.digLatch.getLsbD p

/-- `segDriven(b)`: `oe_seg = 1` and `seg_latch[b] = 0` (active-low). -/
def segDriven (s : State) (b : Fin 16) : Bool := s.oeSeg && !s.segLatch.getLsbD b.val

/-- `lit(p, b)`. -/
def lit (s : State) (p : Nat) (b : Fin 16) : Bool := digitOn s p && segDriven s b

/-- `dpLit(p)`: the digit is on and `dp_line_n = 0` (active-low). -/
def dpLit (s : State) (p : Nat) : Bool := digitOn s p && !s.dpLineN

/-- `shownMask(p)`: bit `i` is 1 iff `lit(p, PERM[i])`, the logical view. -/
def shownMask (s : State) (p : Nat) : Word := orBits (fun i => lit s p s.cfg.perm[i]) id

/-- The three indicator channels (43_brightness.md R164). -/
inductive Channel
  | am | pm | sep
  deriving DecidableEq, Repr

/-- A channel's observable output: its register triple, enable, compare and period (43_brightness.md R164). -/
def chan (s : State) : Channel → Bool × Word × Word
  | .am => (s.enAm, s.cmpAm, s.pwmPeriod)
  | .pm => (s.enPm, s.cmpPm, s.pwmPeriod)
  | .sep => (s.enSep, s.cmpSep, s.pwmPeriod)

/-- "A channel with enable 0 is dark" (43_brightness.md R164). -/
def channelDark (s : State) (ch : Channel) : Bool := !(chan s ch).1

end Sys2Proof.Machine
end

