-- ==== Sys2Proof/Machine/Pseudo.lean ====
section
/-! DEFINITION. The pseudo-operations (30_encoding.md R80 to R82): what an assembler or host expands them to. -/

namespace Sys2Proof.Machine

/-- `POPULATE` from slot `k` on, with `room` slots left: a WRSEG per character until the slots, the characters or
the text before the terminator run out (30_encoding.md R80). -/
def populateFrom (font : Char → Word) (terminator : Char) : Nat → Nat → List Char → List Instr
  | 0, _, _ => []
  | _ + 1, _, [] => []
  | room + 1, k, ch :: rest =>
    if ch = terminator then []
    else .wrseg (Fin.ofNat 16 k) (font ch) :: populateFrom font terminator room (k + 1) rest

/-- `POPULATE s` (30_encoding.md R80) with the parameters FONT and TERMINATOR (00_scope.md R5; DESIGN CHOICE, log 12). -/
def populate (c : Config) (font : Char → Word) (terminator : Char) (s : List Char) : List Instr :=
  populateFrom font terminator c.ndigits 0 s

/-- `CLRSEG k` is `WRSEG k, 0x0000` (30_encoding.md R81). -/
def clrseg (k : Fin 16) : Instr := .wrseg k 0

/-- `CLRBUF`: CLRSEG of every slot, then WRDP of 0 to every bit (30_encoding.md R82). -/
def clrbuf (c : Config) : List Instr :=
  (List.range c.ndigits).map (fun k => clrseg (Fin.ofNat 16 k)) ++
    (List.range c.ndigits).map (fun k => .wrdp (Fin.ofNat 16 k) false)

/-- The Host's turns that issue these commands, in order. -/
def hostTurns (program : List Instr) : List Turn := program.map fun i => .command (encode i)

end Sys2Proof.Machine
end

