-- ==== Sys2Proof/Safety.lean ====
section
/-! DEFINITION. The terms that claims use: the invariant of the state, runs and instants (70_reset_and_hazards.md
R213), what a SCAN shows (42_scan_controller.md R151), and serviced ticks (R148). -/

namespace Sys2Proof.Machine

/-- A quiescent state: no tick pending, no fault (70_reset_and_hazards.md R213). -/
abbrev State.Quiescent (s : State) : Prop := s.tickPending = false ∧ s.fault = none

/-- A fault record says what raised it (60_exceptions.md R180): a word that decodes to no command, or an index of
NDIGITS or more named by WRSEG or WRDP. -/
def FaultRecord.valid (c : Config) : FaultRecord → Bool
  | .illegalCommand w => decode w == .illegal w
  | .indexOutOfRange op k => decide (c.ndigits ≤ k.val) && (op == .WRSEG || op == .WRDP)

/-- The digit the last SCAN selected: `(idx + NDIGITS - 1) mod NDIGITS` (42_scan_controller.md R150). -/
def lastDigit (s : State) : Nat := (s.idx + s.cfg.ndigits - 1) % s.cfg.ndigits

/-- The chains hold DIGIT_DEPTH bits: no bit at or above it (10_state.md R27, R28; DESIGN CHOICE, log 8). -/
abbrev State.ChainsFit (s : State) : Prop :=
  s.digSr.toNat < 2 ^ s.cfg.digitDepth ∧ s.digLatch.toNat < 2 ^ s.cfg.digitDepth

/-- While the sink is on, the digit latch is the one-hot value of the last SCAN's digit (42_scan_controller.md R149,
R150). -/
abbrev State.SinkOnOneDigit (s : State) : Prop :=
  s.sinkEn = true → s.digLatch = onehot s.cfg.digitDepth (lastDigit s)

/-- The three compare values are equal (43_brightness.md R168), and they and the period are either as Reset left
them or a table entry under the constant period (R161). -/
abbrev State.ChannelsAgree (s : State) : Prop :=
  s.cmpAm = s.cmpPm ∧ s.cmpPm = s.cmpSep ∧
    ((s.pwmPeriod = 0 ∧ s.cmpAm = 0) ∨ (s.pwmPeriod = s.cfg.pwmPeriod ∧ ∃ i : Fin 8, s.cmpAm = s.cfg.brtTable[i]))

/-- A recorded fault is a valid one and came with `resp <- none` (60_exceptions.md R180, R181). -/
abbrev State.FaultRecorded (s : State) : Prop := ∀ r ∈ s.fault, r.valid s.cfg = true ∧ s.resp = none

/-- The invariant every step keeps: the buffer's form (10_state.md R21, R22), the index in range (R23), the chains'
widths, the one-hot latch, the equal channels, both output enables set together (R32), and the fault record. -/
abbrev State.Inv (s : State) : Prop :=
  Memory.wf s.cfg s.buf s.dp ∧ s.idx < s.cfg.ndigits ∧ s.ChainsFit ∧ s.SinkOnOneDigit ∧ s.ChannelsAgree ∧
    s.oeDig = s.oeSeg ∧ s.FaultRecorded

/-- One command, then more, as long as the outcome is a next state. -/
def andThen (o : Host.Outcome State Fault Refusal) (k : State → Host.Outcome State Fault Refusal) :
    Host.Outcome State Fault Refusal :=
  match o with
  | .next s => k s
  | .fault r => .fault r
  | .refused r => .refused r

/-- `n` steps of the machine (70_reset_and_hazards.md R213). -/
abbrev run (n : Nat) (s : State) : Host.Outcome State Fault Refusal := Host.Core.run Sys2Proof.core n s

/-- The same output functions (41_shift_register_driver.md R131) at every digit and line. -/
abbrev SameOutputs (s t : State) : Prop :=
  (∀ p, digitOn t p = digitOn s p) ∧ (∀ b, segDriven t b = segDriven s b) ∧ (∀ p b, lit t p b = lit s p b) ∧
    (∀ p, dpLit t p = dpLit s p) ∧ ∀ p, shownMask t p = shownMask s p

/-- The schedule of `n` serviced ticks: each tick is raised and then serviced by a SCAN. -/
def servicedTicks : Nat → List Turn
  | 0 => []
  | n + 1 => .tick :: .scan :: servicedTicks n

/-- The state shows the snapshot `sn`: its digit is latched, with its own word and decimal point
(42_scan_controller.md R151). -/
abbrev Shows (s : State) (sn : Snapshot) : Prop :=
  s.digLatch = onehot s.cfg.digitDepth sn.k ∧ s.segLatch = sn.w ∧ s.dpLineN = !sn.d

/-- The snapshot of the SCAN that a step from `s` performs, if it performs one. -/
def scannedBy (s : State) : Option Snapshot :=
  match s.schedule with
  | [] => if s.scanEnabled then takeSnapshot s else none
  | .scan :: _ => if s.scanEnabled then takeSnapshot s else none
  | _ :: _ => none

/-- The last snapshot shown since Reset, after a step from `s`: forgotten by Reset, replaced by a SCAN. -/
def shownAfter (s : State) (g : Option Snapshot) : Option Snapshot :=
  match s.schedule with
  | .reset :: _ => none
  | _ => (scannedBy s).or g

/-- The states of every run (70_reset_and_hazards.md R213), for every configuration, every draw and every order of
the agents, each with the snapshot of the last SCAN since the last Reset. -/
inductive Reachable : State → Option Snapshot → Prop
  /-- A run starts with a Reset. -/
  | start (c : Config) (d : ResetDraw) (schedule : List Turn) (n : Nat) :
      Reachable (State.afterReset c d schedule n) none
  /-- A run goes on by a step. -/
  | more (s t : State) (g : Option Snapshot) : Reachable s g → step s = .next t → Reachable t (shownAfter s g)

/-- An unending run without a fault and without a Reset that is weakly fair (70_reset_and_hazards.md R212): turn `f n`
leads from state `σ n` to state `σ (n + 1)`, the TickSource steps infinitely often, and SCAN, while it stays enabled,
is eventually taken. -/
structure FairRun (f : Nat → Turn) (σ : Nat → State) : Prop where
  /-- Each turn is performed. -/
  steps : ∀ n, turnStep (f n) (σ n) = .next (σ (n + 1))
  /-- No fault is recorded. -/
  running : ∀ n, (σ n).fault = none
  /-- No Reset intervenes. -/
  noReset : ∀ n, f n ≠ .reset
  /-- Ticks recur. -/
  ticks : ∀ n, ∃ m, n ≤ m ∧ f m = .tick
  /-- An enabled SCAN is eventually taken, or is no longer enabled. -/
  scans : ∀ n, ∃ m, n ≤ m ∧ (f m = .scan ∨ (σ m).scanEnabled = false)

end Sys2Proof.Machine
end

