-- ==== Sys2Proof/Certificates/Slice0/Obligations.lean ====
section
/-! DEFINITION. What is claimed of the block. A docstring names the rule of spec/ a statement formalises; where the
rule carries a decision mark (D<n>, the spec's own choice) or is itself derived in the spec, the docstring says so. -/

open Sys2Proof Sys2Proof.Machine

-- ## Encoding

/-- The decoding examples of 30_encoding.md R84 (the encoding is the spec's own decision D9). -/
def Obligations.SpecExampleWordsDecode : Prop :=
  decode 0x1000003F#32 = .command (.map 0x003F#16) ∧
  decode 0x200C0001#32 = .command (.wrseg 12 0x0001#16) ∧
  decode 0x200D0001#32 = .command (.wrseg 13 0x0001#16) ∧
  decode 0x30050001#32 = .command (.wrdp 5 true) ∧
  decode 0x30050002#32 = .illegal 0x30050002#32 ∧
  decode 0x400000FF#32 = .command (.setbrt 255#8) ∧
  decode 0x40000100#32 = .illegal 0x40000100#32 ∧
  decode 0x50000003#32 = .command (.setflags true true) ∧
  decode 0x60000001#32 = .command (.setsep true) ∧
  decode 0x70000000#32 = .command .enout ∧
  decode 0x70000001#32 = .illegal 0x70000001#32 ∧
  decode 0x00000000#32 = .illegal 0x00000000#32 ∧
  decode 0x8000FFFF#32 = .illegal 0x8000FFFF#32

/-- Every command, with every operand at every value, is decoded back from its word (30_encoding.md R74, R75, R79;
decision D9). -/
def Obligations.DecodeOfEncodeIsTheCommand : Prop :=
  ∀ i : Instr, decode (encode i) = .command i

/-- A word that decodes to a command is that command's one word: no two words spell one command, and no bit of a
command word is dropped (30_encoding.md R71, R76; decisions D9, D10). -/
def Obligations.DecodedWordIsTheOnlyEncoding : Prop :=
  ∀ (w : CommandWord) (i : Instr), decode w = .command i → encode i = w

/-- Decoding by the match and mask of the opcode map, with the fields at their bits, and every other word illegal
(30_encoding.md R71 to R76; decisions D9, D10). -/
def Obligations.DecodeFollowsTheOpcodeMap : Prop :=
  ∀ w : CommandWord,
    (w &&& 0xFFFF0000#32 = 0x10000000#32 → decode w = .command (.map (w.extractLsb' 0 16))) ∧
    (w &&& 0xFFF00000#32 = 0x20000000#32 →
      decode w = .command (.wrseg (w.extractLsb' 16 4).toFin (w.extractLsb' 0 16))) ∧
    (w &&& 0xFFF0FFFE#32 = 0x30000000#32 → decode w = .command (.wrdp (w.extractLsb' 16 4).toFin (w.getLsbD 0))) ∧
    (w &&& 0xFFFFFF00#32 = 0x40000000#32 → decode w = .command (.setbrt (w.extractLsb' 0 8))) ∧
    (w &&& 0xFFFFFFFC#32 = 0x50000000#32 → decode w = .command (.setflags (w.getLsbD 0) (w.getLsbD 1))) ∧
    (w &&& 0xFFFFFFFE#32 = 0x60000000#32 → decode w = .command (.setsep (w.getLsbD 0))) ∧
    (w = 0x70000000#32 → decode w = .command .enout) ∧
    (w &&& 0xFFFF0000#32 ≠ 0x10000000#32 → w &&& 0xFFF00000#32 ≠ 0x20000000#32 →
      w &&& 0xFFF0FFFE#32 ≠ 0x30000000#32 → w &&& 0xFFFFFF00#32 ≠ 0x40000000#32 →
      w &&& 0xFFFFFFFC#32 ≠ 0x50000000#32 → w &&& 0xFFFFFFFE#32 ≠ 0x60000000#32 → w ≠ 0x70000000#32 →
      decode w = .illegal w)

/-- Opcodes 0x0 and 0x8 to 0xF are illegal, and executing such a word raises IllegalCommand with that word, writing
`resp` and `fault` only (30_encoding.md R77; decision D10). -/
def Obligations.UnassignedOpcodesRaiseIllegalCommand : Prop :=
  ∀ (w : CommandWord) (s : State), (w.toNat / 2 ^ 28 = 0 ∨ 8 ≤ w.toNat / 2 ^ 28) → s.fault = none →
    decode w = .illegal w ∧
    commandTurn w s = .next { s with fault := some (.illegalCommand w), resp := none }

/-- The assembler makes the word of R79 of operands in range, and rejects the others (30_encoding.md R79;
decision D9). -/
def Obligations.AssemblerAcceptsExactlyTheRanges : Prop :=
  (∀ m, (m ≤ 0xFFFF → (AsmLine.map m).assemble = .ok (BitVec.ofNat 32 (0x10000000 ||| m))) ∧
    (0xFFFF < m → ∃ e, (AsmLine.map m).assemble = .error e)) ∧
  (∀ k m, (k ≤ 15 → m ≤ 0xFFFF →
      (AsmLine.wrseg k m).assemble = .ok (BitVec.ofNat 32 (0x20000000 ||| (k <<< 16) ||| m))) ∧
    (15 < k ∨ 0xFFFF < m → ∃ e, (AsmLine.wrseg k m).assemble = .error e)) ∧
  (∀ k v, (k ≤ 15 → v ≤ 1 →
      (AsmLine.wrdp k v).assemble = .ok (BitVec.ofNat 32 (0x30000000 ||| (k <<< 16) ||| v))) ∧
    (15 < k ∨ 1 < v → ∃ e, (AsmLine.wrdp k v).assemble = .error e)) ∧
  (∀ l, (l ≤ 255 → (AsmLine.setbrt l).assemble = .ok (BitVec.ofNat 32 (0x40000000 ||| l))) ∧
    (255 < l → ∃ e, (AsmLine.setbrt l).assemble = .error e)) ∧
  (∀ am pm : Bool, (AsmLine.setflags am pm).assemble =
    .ok (BitVec.ofNat 32 (0x50000000 ||| (pm.toNat <<< 1) ||| am.toNat))) ∧
  (∀ v, (v ≤ 1 → (AsmLine.setsep v).assemble = .ok (BitVec.ofNat 32 (0x60000000 ||| v))) ∧
    (1 < v → ∃ e, (AsmLine.setsep v).assemble = .error e)) ∧
  AsmLine.enout.assemble = .ok 0x70000000#32

-- ## The remapper

/-- `toHardwareOrder(x)[PERM[i]] = 1 - x[i]` for every `i`, 0 maps to 0xFFFF and 0xFFFF to 0 (40_segment_mapper.md
R101). -/
def Obligations.RemapperPlacesEachInvertedBit : Prop :=
  ∀ (c : Config) (x : Word),
    (∀ i : Fin 16, (toHardwareOrder c x).getLsbD c.perm[i].val = !x.getLsbD i.val) ∧
    toHardwareOrder c 0x0000#16 = 0xFFFF#16 ∧ toHardwareOrder c 0xFFFF#16 = 0x0000#16

/-- The remapper and its inverse undo each other, so the remapper is a bijection (40_segment_mapper.md section 4,
R106, which the spec derives). -/
def Obligations.RemapperIsABijection : Prop :=
  ∀ (c : Config) (x : Word),
    fromHardwareOrder c (toHardwareOrder c x) = x ∧ toHardwareOrder c (fromHardwareOrder c x) = x

/-- As many 0 bits in the hardware word as lit segments (40_segment_mapper.md section 4, R107, derived). -/
def Obligations.RemapperKeepsTheLitCount : Prop :=
  ∀ (c : Config) (x : Word), popcount (~~~(toHardwareOrder c x)) = popcount x

/-- The remapper turns OR into AND and AND into OR (40_segment_mapper.md section 4, R107, derived). -/
def Obligations.RemapperExchangesOrAndAnd : Prop :=
  ∀ (c : Config) (x y : Word),
    toHardwareOrder c (x ||| y) = toHardwareOrder c x &&& toHardwareOrder c y ∧
    toHardwareOrder c (x &&& y) = toHardwareOrder c x ||| toHardwareOrder c y

-- ## The display-buffer commands

/-- MAP answers, on `resp` alone, the word whose bit PERM[i] is the inverse of the operand's bit `i`
(40_segment_mapper.md R103; decision D24). -/
def Obligations.MapRespondsTheRemappedMask : Prop :=
  ∀ (m : Word) (s : State), s.fault = none →
    ∃ w : Word, exec (.map m) s = .next { s with resp := some w } ∧
      (∀ i : Fin 16, w.getLsbD s.cfg.perm[i].val = !m.getLsbD i.val)

/-- WRSEG on an index below NDIGITS stores the remapped mask in slot `k` and answers none; every other slot reads as
before, and every other element is unchanged (40_segment_mapper.md R104; decisions D9, D11). -/
def Obligations.WrsegStoresOneSlot : Prop :=
  ∀ (k : Fin 16) (m : Word) (s : State), s.fault = none → Memory.wf s.cfg s.buf s.dp → k.val < s.cfg.ndigits →
    ∃ t, exec (.wrseg k m) s = .next t ∧
      bufRead t k.val = some (toHardwareOrder s.cfg m) ∧
      (∀ j, j ≠ k.val → bufRead t j = bufRead s j) ∧
      t = { s with buf := t.buf, resp := none }

/-- WRDP on an index below NDIGITS writes decimal-point bit `k` and answers none; every other bit reads as before,
every slot reads as before, and every other element is unchanged (40_segment_mapper.md R105; decisions D9, D11). -/
def Obligations.WrdpWritesOneBit : Prop :=
  ∀ (k : Fin 16) (v : Bool) (s : State), s.fault = none → k.val < s.cfg.ndigits →
    ∃ t, exec (.wrdp k v) s = .next t ∧
      dpRead t k.val = v ∧
      (∀ j, j ≠ k.val → dpRead t j = dpRead s j) ∧
      (∀ j, bufRead t j = bufRead s j) ∧
      t = { s with dp := t.dp, resp := none }

/-- WRSEG and WRDP on an index of NDIGITS or more record IndexOutOfRange with the mnemonic and the index, answer none
and write nothing else (40_segment_mapper.md R104, R105, 60_exceptions.md R180, R181; decisions D11, D12). -/
def Obligations.IndexOutOfRangeIsPrecise : Prop :=
  ∀ (k : Fin 16) (m : Word) (v : Bool) (s : State), s.fault = none → s.cfg.ndigits ≤ k.val →
    exec (.wrseg k m) s = .next { s with fault := some (.indexOutOfRange .WRSEG k), resp := none } ∧
    exec (.wrdp k v) s = .next { s with fault := some (.indexOutOfRange .WRDP k), resp := none }

-- ## Brightness

/-- The level is clamped as a comparator and a multiplexer do it: 7 when `l > 7`, else `l[2:0]`; the compare value is
the table's entry there, and the table strictly increases (43_brightness.md R160). -/
def Obligations.LevelSelectsATableEntry : Prop :=
  ∀ (c : Config) (l : BitVec 8),
    (7 < l.toNat → brightnessCompare c l = c.brtTable[7]) ∧
    (l.toNat ≤ 7 → brightnessCompare c l = c.brtTable[(l.extractLsb' 0 3).toFin]) ∧
    (∀ i j : Fin 8, i < j → c.brtTable[i] < c.brtTable[j])

/-- SETBRT writes the constant period and the same table entry, that of `min(l, 7)`, into the three compare registers,
answers none, and changes nothing else, no enable among it (43_brightness.md R161; decision D27 for the width). -/
def Obligations.SetbrtProgramsAllThreeChannels : Prop :=
  ∀ (l : BitVec 8) (n : Fin 8) (s : State), s.fault = none → n.val = min l.toNat 7 →
    exec (.setbrt l) s = .next { s with
      pwmPeriod := s.cfg.pwmPeriod, cmpAm := s.cfg.brtTable[n], cmpPm := s.cfg.brtTable[n],
      cmpSep := s.cfg.brtTable[n], resp := none }

/-- Below 8 a higher level has a strictly higher compare value, and every level from 7 up is level 7, to the same
state from every state (43_brightness.md section 4, R165, derived). -/
def Obligations.BrightnessIsStrictThenClamped : Prop :=
  ∀ (l1 l2 : BitVec 8) (s : State),
    (l1.toNat < l2.toNat → l2.toNat ≤ 7 → brightnessCompare s.cfg l1 < brightnessCompare s.cfg l2) ∧
    (7 ≤ l1.toNat → exec (.setbrt l1) s = exec (.setbrt 7) s)

/-- A SETBRT to a higher level below 8, after another SETBRT, raises all three compare values strictly and leaves the
period where the first one set it (43_brightness.md section 4, R166, derived). -/
def Obligations.BrighterLevelRaisesComparesNotPeriod : Prop :=
  ∀ (l1 l2 : BitVec 8) (s : State), s.fault = none → l1.toNat < l2.toNat → l2.toNat ≤ 7 →
    ∃ t u, exec (.setbrt l1) s = .next t ∧ exec (.setbrt l2) t = .next u ∧
      t.cmpAm < u.cmpAm ∧ t.cmpPm < u.cmpPm ∧ t.cmpSep < u.cmpSep ∧
      t.pwmPeriod = s.cfg.pwmPeriod ∧ u.pwmPeriod = t.pwmPeriod

/-- SETFLAGS writes the two enables and answers none, and nothing else: no separator enable, compare or period
(43_brightness.md R162; decision D26 for the bits). -/
def Obligations.SetflagsWritesTheTwoEnables : Prop :=
  ∀ (am pm : Bool) (s : State), s.fault = none →
    exec (.setflags am pm) s = .next { s with enAm := am, enPm := pm, resp := none }

/-- SETSEP: opcode 0x6 with bits 27..1 clear, `v` in bit 0; it writes the separator enable and answers none, never
faults, and leaves the other enables (43_brightness.md R163). -/
def Obligations.SetsepWritesTheSeparatorEnable : Prop :=
  (∀ (v : Bool) (s : State), s.fault = none → exec (.setsep v) s = .next { s with enSep := v, resp := none }) ∧
  (∀ w : CommandWord, w.toNat / 2 ^ 28 = 6 →
    (decode w = .command (.setsep (w.getLsbD 0)) ↔ w &&& 0x0FFFFFFE#32 = 0#32))

/-- The three brightness commands commute with each other and with the buffer writes, to the same state, the final
`resp` included (43_brightness.md section 4, R167, and 20_memory.md section 5, R62, both derived). -/
def Obligations.BrightnessCommandsCommute : Prop :=
  ∀ (l : BitVec 8) (am pm v : Bool) (s : State),
    andThen (exec (.setbrt l) s) (exec (.setflags am pm)) = andThen (exec (.setflags am pm) s) (exec (.setbrt l)) ∧
    andThen (exec (.setbrt l) s) (exec (.setsep v)) = andThen (exec (.setsep v) s) (exec (.setbrt l)) ∧
    andThen (exec (.setflags am pm) s) (exec (.setsep v)) = andThen (exec (.setsep v) s) (exec (.setflags am pm)) ∧
    ∀ (b : Instr) (k : Fin 16) (m : Word) (d : Bool), b = .setbrt l ∨ b = .setflags am pm ∨ b = .setsep v →
      k.val < s.cfg.ndigits →
      andThen (exec b s) (exec (.wrseg k m)) = andThen (exec (.wrseg k m) s) (exec b) ∧
      andThen (exec b s) (exec (.wrdp k d)) = andThen (exec (.wrdp k d) s) (exec b)

/-- A brightness command commutes with SCAN (20_memory.md section 5, R62, derived). -/
def Obligations.BrightnessCommutesWithScan : Prop :=
  ∀ (b : Instr) (s : State), b.mnemonic = .SETBRT ∨ b.mnemonic = .SETFLAGS ∨ b.mnemonic = .SETSEP →
    s.fault = none → s.Inv →
    ∃ t, andThen (exec b s) scanStep = .next t ∧ andThen (scanStep s) (exec b) = .next t

-- ## Output enable

/-- ENOUT sets both output enables, answers none and changes nothing else; a second one changes nothing
(42_scan_controller.md R145; decision D23). -/
def Obligations.EnoutEnablesBothBanks : Prop :=
  ∀ s : State, s.fault = none →
    exec .enout s = .next { s with oeDig := true, oeSeg := true, resp := none } ∧
    andThen (exec .enout s) (exec .enout) = exec .enout s

-- ## Faults

/-- Every command completes in every state without a fault; it faults exactly when it names an index of NDIGITS or
more, and then writes `fault` and `resp <- none` and nothing else (60_exceptions.md R180, R181, R188; decisions D10
to D12, D31). -/
def Obligations.CommandsFaultExactlyOutOfRange : Prop :=
  ∀ (i : Instr) (s : State), s.fault = none →
    ∃ t, exec i s = .next t ∧ (t.fault = none ↔ i.indexBelow s.cfg.ndigits) ∧
      (t.fault ≠ none → t = { s with fault := t.fault, resp := none })

/-- A word that decodes to no command, issued by the Host, records IllegalCommand with the word and answers none, and
nothing else changes but the turn taken (60_exceptions.md R180, R181, R184; decisions D10, D12). -/
def Obligations.IllegalWordIsRecorded : Prop :=
  ∀ (w : CommandWord) (rest : List Turn) (s : State), s.fault = none → s.schedule = .command w :: rest →
    (∀ i, decode w ≠ .command i) →
    step s = .next { s with schedule := rest, fault := some (.illegalCommand w), resp := none }

/-- In a faulted state no command has a step (60_exceptions.md R182; decision D12). -/
def Obligations.FaultedStateExecutesNoCommand : Prop :=
  ∀ (i : Instr) (s : State) (r : FaultRecord), s.fault = some r → exec i s = .fault (.frozen r)

/-- In a faulted state the turns of the Host, the TickSource and the Scanner pass with no change but the turn taken,
and the block idles (60_exceptions.md R182, decision D12; that such a turn passes is the model's choice, log 5). -/
def Obligations.FaultedStateIsFrozen : Prop :=
  ∀ (u : Turn) (rest : List Turn) (s : State), s.fault ≠ none → u ≠ .reset →
    (s.schedule = u :: rest → step s = .next { s with schedule := rest }) ∧ (s.schedule = [] → step s = .next s)

/-- Only Reset clears a fault (60_exceptions.md R183; decision D12). -/
def Obligations.OnlyResetClearsAFault : Prop :=
  ∀ s t : State, s.fault ≠ none → step s = .next t → t.fault ≠ s.fault →
    s.schedule.head? = some .reset ∧ t.fault = none

-- ## Reset

/-- Reset, from every state, faulted or not, puts every element with a stated value at it; the shift stages, latches
and lines are free draws of which nothing is said but the chains' width (70_reset_and_hazards.md R200; decisions D12
to D17, D39; the draws log 7). -/
def Obligations.ResetSetsEveryStatedValue : Prop :=
  ∀ (rest : List Turn) (s : State), s.schedule = .reset :: rest →
    ∃ t, step s = .next t ∧ t.buf = List.replicate s.cfg.ndigits 0xFFFF#16 ∧ t.dp = 0 ∧ t.idx = 0 ∧
      t.tickPending = false ∧ t.sinkEn = false ∧ t.oeDig = false ∧ t.oeSeg = false ∧ t.pwmPeriod = 0 ∧ t.cmpAm = 0 ∧
      t.cmpPm = 0 ∧ t.cmpSep = 0 ∧ t.enAm = false ∧ t.enPm = false ∧ t.enSep = false ∧ t.resp = none ∧
      t.fault = none ∧ t.ChainsFit ∧ t.cfg = s.cfg ∧ t.schedule = rest

/-- After a Reset no output is asserted and every channel is dark, whatever the draws (70_reset_and_hazards.md section
1, R201, derived). -/
def Obligations.NothingIsAssertedAfterReset : Prop :=
  ∀ (c : Config) (d : ResetDraw) (schedule : List Turn) (n p : Nat) (b : Fin 16) (ch : Channel),
    digitOn (State.afterReset c d schedule n) p = false ∧ segDriven (State.afterReset c d schedule n) b = false ∧
    dpLit (State.afterReset c d schedule n) p = false ∧ channelDark (State.afterReset c d schedule n) ch = true

/-- The invariant holds after every Reset, for every configuration and every draw, and in the model's reset state. -/
def Obligations.ResetStateHasTheInvariant : Prop :=
  State.reset.Inv ∧
    ∀ (c : Config) (d : ResetDraw) (schedule : List Turn) (n : Nat), (State.afterReset c d schedule n).Inv

/-- An ill-formed configuration is refused by the name of a check it fails, and a well-formed one has an initial state
(00_scope.md R8; decision D38; which failing check is named is log 3). -/
def Obligations.IllFormedConfigurationIsRefused : Prop :=
  ∀ (p : Params) (schedule : List Turn),
    (p.wf → ∃ t, boot p schedule = .next t ∧ t.cfg.toParams = p) ∧
    (¬ p.wf → ∃ check, boot p schedule = .refused (.illFormedConfiguration check) ∧
      match check with
      | .ndigitsRange => ¬ p.ndigitsRange
      | .depthRange => ¬ p.depthRange
      | .permBijective => ¬ p.permBijective
      | .tableStrict => ¬ p.tableStrict)

-- ## Steps

/-- Every step keeps the invariant, whatever agent takes it: the buffer has NDIGITS slots and no decimal-point bit
beyond, `idx < NDIGITS`, the chains fit, a sinking digit is the one-hot last digit, the channels agree, the output
enables are set together, a fault record is valid (10_state.md R21 to R23, R27, R28, R32, 42_scan_controller.md R149,
43_brightness.md R168). -/
def Obligations.StepKeepsTheInvariant : Prop :=
  ∀ s t : State, s.Inv → step s = .next t → t.Inv

/-- From a state with the invariant every step answers a next state: no agent's turn stops the machine
(00_scope.md R9, 60_exceptions.md R180: "SCAN never faults"; how a turn without a step passes is log 5). -/
def Obligations.EveryStepFromTheInvariantCompletes : Prop :=
  ∀ s : State, s.Inv → ∃ t, step s = .next t

/-- No step writes the configuration (00_scope.md R5; that State carries it is log 1). -/
def Obligations.StepKeepsTheConfiguration : Prop :=
  ∀ s t : State, step s = .next t → t.cfg = s.cfg

/-- With no fault, a step whose turn is the Host's runs the decoded command on the rest of the schedule, and a table
word placed by `withFetchWord` runs the command it decodes to (30_encoding.md R70, R75; the schedule is log 4). -/
def Obligations.StepRunsTheDecodedCommand : Prop :=
  (∀ (w : CommandWord) (i : Instr) (rest : List Turn) (s : State), s.fault = none →
    s.schedule = .command w :: rest → decode w = .command i → step s = exec i { s with schedule := rest }) ∧
  (∀ (nbits w : Nat) (i : Instr) (s : State), s.fault = none → decodeTableWord nbits w = some i →
    step (s.withFetchWord nbits w) = exec i s)

/-- The access matrix of the commands: what no command writes, and which command alone writes each other element
(10_state.md R38; decisions as its rows). -/
def Obligations.CommandsFollowTheAccessMatrix : Prop :=
  ∀ (i : Instr) (s t : State), exec i s = .next t →
    (t.idx = s.idx ∧ t.tickPending = s.tickPending ∧ t.segSr = s.segSr ∧ t.segLatch = s.segLatch ∧
      t.digSr = s.digSr ∧ t.digLatch = s.digLatch ∧ t.dataLine = s.dataLine ∧ t.sinkEn = s.sinkEn ∧
      t.dpLineN = s.dpLineN ∧ t.cfg = s.cfg ∧ t.schedule = s.schedule ∧ t.drawCount = s.drawCount) ∧
    (i.mnemonic ≠ .WRSEG → t.buf = s.buf) ∧ (i.mnemonic ≠ .WRDP → t.dp = s.dp) ∧
    (i.mnemonic ≠ .SETBRT →
      t.pwmPeriod = s.pwmPeriod ∧ t.cmpAm = s.cmpAm ∧ t.cmpPm = s.cmpPm ∧ t.cmpSep = s.cmpSep) ∧
    (i.mnemonic ≠ .SETFLAGS → t.enAm = s.enAm ∧ t.enPm = s.enPm) ∧ (i.mnemonic ≠ .SETSEP → t.enSep = s.enSep) ∧
    (i.mnemonic ≠ .ENOUT → t.oeDig = s.oeDig ∧ t.oeSeg = s.oeSeg) ∧ (i.mnemonic ≠ .MAP → t.resp = none) ∧
    (i.mnemonic ≠ .WRSEG → i.mnemonic ≠ .WRDP → t.fault = s.fault)

-- ## The shift-register chains

/-- SetData, the two store pulses and SetDP change their one element and nothing else, and SetData changes no output
(41_shift_register_driver.md R121, R123, R125, R127). The last clause, that the decimal point of a digit is driven
exactly when the line is 0 and that digit is on, rests on the spec's own decisions D28 (the point needs its digit's
sink) and D16 (the sink gates the digit) in the output functions of R131. -/
def Obligations.MicroOperationsWriteTheirElement : Prop :=
  ∀ (b : Bool) (s : State),
    microStep (.setData b) s = { s with dataLine := b } ∧ SameOutputs s (microStep (.setData b) s) ∧
    microStep .pulseSegStore s = { s with segLatch := s.segSr } ∧
    microStep .pulseDigStore s = { s with digLatch := s.digSr } ∧
    microStep (.setDP b) s = { s with dpLineN := b } ∧
    (∀ p, dpLit (microStep (.setDP b) s) p = true ↔ digitOn s p = true ∧ b = false)

/-- A segment shift pulse: stage 0 takes the data line, stage `j` takes stage `j - 1`, the old stage 15 is lost, and
nothing else changes, no latch and no output (41_shift_register_driver.md R122). -/
def Obligations.SegmentPulseMovesEachStage : Prop :=
  ∀ s : State, ∃ v : Word, microStep .pulseSegShift s = { s with segSr := v } ∧
    v = ((s.segSr <<< 1) ||| (BitVec.ofBool s.dataLine).setWidth 16) &&& 0xFFFF#16 ∧
    v.getLsbD 0 = s.dataLine ∧ (∀ j, j < 15 → v.getLsbD (j + 1) = s.segSr.getLsbD j) ∧
    SameOutputs s (microStep .pulseSegShift s)

/-- A digit shift pulse: the same over DIGIT_DEPTH stages, the old stage DIGIT_DEPTH-1 lost
(41_shift_register_driver.md R124; decision D7; the container is log 8). -/
def Obligations.DigitPulseMovesEachStage : Prop :=
  ∀ s : State, ∃ v : ChainBits, microStep .pulseDigShift s = { s with digSr := v } ∧
    v.toNat = (2 * s.digSr.toNat + s.dataLine.toNat) % 2 ^ s.cfg.digitDepth ∧
    v.getLsbD 0 = s.dataLine ∧
    (∀ j, j + 1 < s.cfg.digitDepth → v.getLsbD (j + 1) = s.digSr.getLsbD j) ∧
    (∀ j, s.cfg.digitDepth ≤ j → v.getLsbD j = false)

/-- However many pulses of one chain, with the data line set to anything between them, they change nothing of the
other chain, and what they do to their own depends on nothing of the other: the shared data line is read by the pulsed
chain alone (41_shift_register_driver.md R132). -/
def Obligations.ChainsAreIndependent : Prop :=
  ∀ (ops : List MicroOp) (a b : ChainBits) (v w : Word) (s : State),
    ((∀ o ∈ ops, o ≠ .pulseDigShift ∧ o ≠ .pulseDigStore) →
      (runMicro ops s).digSr = s.digSr ∧ (runMicro ops s).digLatch = s.digLatch ∧
      (runMicro ops { s with digSr := a, digLatch := b }).segSr = (runMicro ops s).segSr ∧
      (runMicro ops { s with digSr := a, digLatch := b }).segLatch = (runMicro ops s).segLatch) ∧
    ((∀ o ∈ ops, o ≠ .pulseSegShift ∧ o ≠ .pulseSegStore) →
      (runMicro ops s).segSr = s.segSr ∧ (runMicro ops s).segLatch = s.segLatch ∧
      (runMicro ops { s with segSr := v, segLatch := w }).digSr = (runMicro ops s).digSr ∧
      (runMicro ops { s with segSr := v, segLatch := w }).digLatch = (runMicro ops s).digLatch)

/-- A whole segment shift leaves the word in the shift stages, whatever they held, bit 0 on the data line, and every
output as before (41_shift_register_driver.md sections 2 and 4, R128 and R133, both derived). -/
def Obligations.SegmentShiftLoadsTheWord : Prop :=
  ∀ (w : Word) (s : State),
    runMicro (shiftSegWord w) s = { s with segSr := w, dataLine := w.getLsbD 0 } ∧
    ∀ t ∈ microTrace (shiftSegWord w) s, SameOutputs s t

/-- A whole digit-select shift leaves the one-hot pattern over the full depth, whatever the stages held, and every
output as before (41_shift_register_driver.md sections 2 and 4, R129 and R133, both derived). -/
def Obligations.DigitShiftLoadsTheOneHot : Prop :=
  ∀ (k : Nat) (s : State), k < s.cfg.ndigits →
    runMicro (shiftDigitSelect s.cfg.digitDepth k) s =
      { s with digSr := onehot s.cfg.digitDepth k, dataLine := decide (k = 0) } ∧
    ∀ t ∈ microTrace (shiftDigitSelect s.cfg.digitDepth k) s, SameOutputs s t

/-- The micro-operation list of a SCAN, for a chain of any given depth, pulses the segment shift clock 16 times
(41_shift_register_driver.md section 2, R128, derived), the digit shift clock once per position of that depth (R129,
derived; the point of 70_reset_and_hazards.md R207 and 90_conflicts.md C3), and each store clock once
(42_scan_controller.md section 2, R142 step 7; decision D18). It is about the list alone: that a SCAN runs it at
DIGIT_DEPTH is said by DigitShiftLoadsTheOneHot and ScanEndState. -/
def Obligations.ScanPulsesTheFullDepth : Prop :=
  ∀ (depth : Nat) (sn : Snapshot),
    (scanOps depth sn).count .pulseSegShift = 16 ∧ (scanOps depth sn).count .pulseDigShift = depth ∧
    (scanOps depth sn).count .pulseSegStore = 1 ∧ (scanOps depth sn).count .pulseDigStore = 1

-- ## The scan

/-- A tick sets `tick_pending` and changes nothing else; any number of them before a SCAN is one
(42_scan_controller.md R140, decision D21, and R152, derived). -/
def Obligations.TicksCollapseIntoOneFlag : Prop :=
  ∀ (n : Nat) (rest : List Turn) (s : State), s.fault = none → s.schedule = List.replicate (n + 1) .tick ++ rest →
    run (n + 1) s = .next { s with tickPending := true, schedule := rest }

/-- With no tick pending the Scanner has no step (42_scan_controller.md R141; decision D22; that its turn passes is
log 5). -/
def Obligations.NoTickNoScan : Prop :=
  ∀ (rest : List Turn) (s : State), s.tickPending = false → s.schedule = .scan :: rest →
    step s = .next { s with schedule := rest }

/-- The end state of a SCAN in a state with a tick pending and no fault, element by element, whatever the shift stages,
latches and lines held before (42_scan_controller.md section 2, R144, derived from R142). -/
def Obligations.ScanEndState : Prop :=
  ∀ (rest : List Turn) (s : State), s.Inv → s.tickPending = true → s.fault = none → s.schedule = .scan :: rest →
    ∃ w, bufRead s s.idx = some w ∧
      step s = .next { s with
        schedule := rest, tickPending := false, segSr := w, segLatch := w,
        digSr := onehot s.cfg.digitDepth s.idx, digLatch := onehot s.cfg.digitDepth s.idx,
        dataLine := decide (s.idx = 0), sinkEn := true, dpLineN := !dpRead s s.idx,
        idx := (s.idx + 1) % s.cfg.ndigits }

/-- After a SCAN the decimal-point line is driven (low) exactly when the digit's bit is set, and the latched word is
the digit's own, whatever the decimal points are (42_scan_controller.md R143). -/
def Obligations.DecimalPointFollowsTheMask : Prop :=
  ∀ (dp : Word) (s : State), s.Inv →
    ∃ t u, scanStep s = .next t ∧ (t.dpLineN = false ↔ dpRead s s.idx = true) ∧
      some t.segLatch = bufRead s s.idx ∧ scanStep { s with dp := dp } = .next u ∧ u.segLatch = t.segLatch

/-- With no tick pending no step but ENOUT or a Reset changes a latch or an output (42_scan_controller.md R146). That
the Scanner has no step is said as the model says it: its scheduled turn passes with no change (the model's choice,
log 5), and with no turn scheduled the block idles (the model's choice, log 6). -/
def Obligations.IdleOutputsHold : Prop :=
  ∀ s t : State, s.tickPending = false → step s = .next t → s.schedule.head? ≠ some .reset →
    s.schedule.head? ≠ some (.command 0x70000000#32) →
    turnStep .scan s = .next s ∧ SameOutputs s t ∧ t.segLatch = s.segLatch ∧ t.digLatch = s.digLatch

/-- At every instant of a SCAN from a state with the invariant, the state itself included, at most one digit is on
(42_scan_controller.md section 5, R149, derived). -/
def Obligations.AtMostOneDigitOnAtEveryInstant : Prop :=
  ∀ s : State, s.Inv → ∀ t ∈ scanInstants s, ∀ p q, digitOn t p = true → digitOn t q = true → p = q

/-- No ghost frame, over every run: a sinking state shows the last SCAN's own snapshot; and the instants of the next
SCAN are first ones with the latches and lines as before, then dark ones with no digit on, then ones that show the new
snapshot (42_scan_controller.md section 5, R151, derived; 70_reset_and_hazards.md R205). -/
def Obligations.NoGhostFrame : Prop :=
  ∀ (s : State) (g : Option Snapshot), Reachable s g →
    (s.sinkEn = true → ∃ sn, g = some sn ∧ Shows s sn) ∧
    ∃ sn before dark after, takeSnapshot s = some sn ∧ scanInstants s = before ++ dark ++ after ∧
      before ≠ [] ∧ dark ≠ [] ∧ after ≠ [] ∧
      (∀ t ∈ before, t.sinkEn = s.sinkEn ∧ t.digLatch = s.digLatch ∧ t.segLatch = s.segLatch ∧
        t.dpLineN = s.dpLineN) ∧
      (∀ t ∈ dark, ∀ p, digitOn t p = false) ∧
      (∀ t ∈ after, t.sinkEn = true ∧ Shows t sn)

/-- After at least one SCAN since the last Reset, with the digit bank enabled, exactly the last SCAN's digit is on, and
it is `(idx + NDIGITS - 1) mod NDIGITS` (42_scan_controller.md section 5, R150, derived). -/
def Obligations.ExactlyOneDigitOnBetweenUpdates : Prop :=
  ∀ (s : State) (sn : Snapshot), Reachable s (some sn) → s.oeDig = true →
    sn.k = (s.idx + s.cfg.ndigits - 1) % s.cfg.ndigits ∧ ∀ p, digitOn s p = true ↔ p = sn.k

/-- Any NDIGITS consecutive serviced ticks select each digit exactly once, the `j`-th one digit
`(idx + j) mod NDIGITS` (42_scan_controller.md section 5, R148, derived; the schedule is log 4). -/
def Obligations.EveryFrameSelectsEachDigitOnce : Prop :=
  ∀ (s : State) (k : Nat), s.Inv → s.fault = none → k < s.cfg.ndigits →
    (∀ j, ∃ t, run (2 * (j + 1)) { s with schedule := servicedTicks (j + 1) } = .next t ∧
      t.digLatch = onehot s.cfg.digitDepth ((s.idx + j) % s.cfg.ndigits) ∧
      t.idx = (s.idx + j + 1) % s.cfg.ndigits) ∧
    ∃! j, j < s.cfg.ndigits ∧ ∃ t, run (2 * (j + 1)) { s with schedule := servicedTicks (j + 1) } = .next t ∧
      t.digLatch = onehot s.cfg.digitDepth k

/-- Under weak fairness every digit is selected infinitely often: after any point of a fair run the Scanner performs a
SCAN of digit `k` (70_reset_and_hazards.md R212; decision D30). -/
def Obligations.FairRunsSelectEveryDigitForever : Prop :=
  ∀ (f : Nat → Turn) (σ : Nat → State) (k n : Nat), FairRun f σ → (σ 0).Inv → k < (σ 0).cfg.ndigits →
    ∃ m, n ≤ m ∧ f m = .scan ∧ (σ m).scanEnabled = true ∧ (σ m).idx = k ∧
      (σ (m + 1)).digLatch = onehot (σ 0).cfg.digitDepth k

/-- A mask written by WRSEG is what its digit shows after 1 to NDIGITS serviced ticks, when the outputs are enabled,
and the write itself changes no output (20_memory.md section 5, R61, and 70_reset_and_hazards.md section 3, R210, both
derived). -/
def Obligations.WrittenMaskIsShownWithinAFrame : Prop :=
  ∀ (k : Fin 16) (m : Word) (s : State), s.Inv → s.fault = none → k.val < s.cfg.ndigits → s.oeDig = true →
    ∃ t, exec (.wrseg k m) s = .next t ∧ SameOutputs s t ∧
      ∃ n u, 1 ≤ n ∧ n ≤ s.cfg.ndigits ∧ run (2 * n) { t with schedule := servicedTicks n } = .next u ∧
        digitOn u k.val = true ∧ shownMask u k.val = m ∧ dpLit u k.val = dpRead s k.val

/-- SCAN runs the same whatever the output enables are; with them off nothing is driven, and ENOUT then shows the last
SCAN at once (42_scan_controller.md section 5, R153, derived). -/
def Obligations.ScanIgnoresTheOutputEnables : Prop :=
  ∀ (a b : Bool) (s : State), s.Inv → s.fault = none →
    ∃ t, scanStep s = .next t ∧
      scanStep { s with oeDig := a, oeSeg := b } = .next { t with oeDig := a, oeSeg := b } ∧
      (∀ p, digitOn { t with oeDig := false, oeSeg := false } p = false) ∧
      (∀ l, segDriven { t with oeDig := false, oeSeg := false } l = false) ∧
      ∃ u, exec .enout t = .next u ∧ (∀ p, digitOn u p = true ↔ p = s.idx) ∧
        ∀ l, segDriven u l = !t.segLatch.getLsbD l.val

-- ## Pseudo-operations

/-- After a Reset and POPULATE, run as command words, the slots hold the remapped font masks of the characters before
the terminator, the rest the all-off value, and no decimal point is set (40_segment_mapper.md section 4, R109,
derived). -/
def Obligations.PopulateFillsTheBuffer : Prop :=
  ∀ (c : Config) (d : ResetDraw) (n : Nat) (font : Char → Word) (terminator : Char) (text : List Char),
    ∃ t, run (populate c font terminator text).length
        (State.afterReset c d (hostTurns (populate c font terminator text)) n) = .next t ∧
      (∀ j, j < c.ndigits → bufRead t j = some (match (text.takeWhile fun ch => ch != terminator)[j]? with
        | some ch => toHardwareOrder c (font ch)
        | none => 0xFFFF#16)) ∧
      t.dp = 0 ∧ t.fault = none

/-- CLRBUF is 2 × NDIGITS commands, and run as command words from any state with the invariant and no fault it returns
the buffer and the decimal-point mask to their reset values (30_encoding.md section 6, R82, derived). -/
def Obligations.ClrbufRestoresTheResetBuffer : Prop :=
  ∀ s : State, s.Inv → s.fault = none → s.schedule = hostTurns (clrbuf s.cfg) →
    (clrbuf s.cfg).length = 2 * s.cfg.ndigits ∧
    ∃ t, run (2 * s.cfg.ndigits) s = .next t ∧ t.buf = List.replicate s.cfg.ndigits 0xFFFF#16 ∧ t.dp = 0 ∧
      t.fault = none
end

