-- ==== Sys2Proof/Laws/Bits.lean ====
section
/-! SUPPORT. The bits of the bit primitives (00_scope.md R11). -/

namespace Sys2Proof.Machine

theorem zextBit_getLsbD (n j : Nat) (b : Bool) :
    (zextBit n b).getLsbD j = (decide (j < n) && decide (j = 0) && b) := by
  cases j <;> simp [zextBit]

/-- A bit placed at position `k`. -/
theorem zextBit_shiftLeft_getLsbD (n k j : Nat) (b : Bool) :
    (zextBit n b <<< k).getLsbD j = (decide (j < n) && decide (j = k) && b) := by
  rw [BitVec.getLsbD_shiftLeft, zextBit_getLsbD, Bool.eq_iff_iff]
  cases b
  · simp only [Bool.and_false]
  · simp only [Bool.and_true, Bool.and_eq_true, decide_eq_true_eq, Bool.not_eq_true', decide_eq_false_iff_not]
    omega

theorem lowMask_getLsbD (d j : Nat) : (lowMask d).getLsbD j = (decide (j < 32) && decide (j < d)) := by
  rw [lowMask, BitVec.getLsbD_ofNat, Nat.testBit_two_pow_sub_one]

/-- A value cut to depth `d` fits in `d` bits. -/
theorem and_lowMask_lt (d : Nat) (hd : d ≤ 32) (v : ChainBits) : (v &&& lowMask d).toNat < 2 ^ d := by
  have h : (2 ^ d - 1) % 2 ^ 32 = 2 ^ d - 1 :=
    Nat.mod_eq_of_lt (Nat.lt_of_lt_of_le (Nat.sub_lt (Nat.two_pow_pos d) Nat.one_pos)
      (Nat.pow_le_pow_right (by decide) hd))
  rw [BitVec.toNat_and, lowMask, BitVec.toNat_ofNat, h, Nat.and_two_pow_sub_one_eq_mod]
  exact Nat.mod_lt _ (Nat.two_pow_pos d)

/-- Bit `j` of a one-hot value, within a chain of at most 32 positions. -/
theorem onehot_getLsbD (d k j : Nat) (hd : d ≤ 32) :
    (onehot d k).getLsbD j = (decide (k < d) && decide (j = k)) := by
  have one : (1#32) = zextBit 32 true := rfl
  unfold onehot
  split
  · next h =>
    rw [one, zextBit_shiftLeft_getLsbD, Bool.eq_iff_iff]
    simp only [Bool.and_eq_true, decide_eq_true_eq, and_true]
    omega
  · next h => simp [h]

/-- A one-hot value fits in its chain. -/
theorem onehot_lt (d k : Nat) (hd : d ≤ 32) : (onehot d k).toNat < 2 ^ d := by
  unfold onehot
  split
  · next h =>
    have h1 : (2 : Nat) ^ k < 2 ^ d := Nat.pow_lt_pow_right (by decide) h
    have h2 : (2 : Nat) ^ k < 2 ^ 32 := Nat.lt_of_lt_of_le h1 (Nat.pow_le_pow_right (by decide) hd)
    rw [BitVec.toNat_shiftLeft, Nat.shiftLeft_eq, BitVec.toNat_ofNat, Nat.one_mod_two_pow (by decide), one_mul,
      Nat.mod_eq_of_lt h2]
    exact h1
  · exact Nat.two_pow_pos d

/-- Reading a bit of a 16-bit value after writing one. -/
theorem writeBit_getLsbD (v : Word) (k j : Nat) (b : Bool) (hk : k < 16) :
    (writeBit v k b).getLsbD j = if j = k then b else v.getLsbD j := by
  have one : (1#16) = zextBit 16 true := rfl
  rw [writeBit, BitVec.getLsbD_or, BitVec.getLsbD_and, BitVec.getLsbD_not, one, zextBit_shiftLeft_getLsbD,
    zextBit_shiftLeft_getLsbD]
  by_cases h : j = k
  · simp [h, hk]
  · have h16 : ¬ j < 16 → v.getLsbD j = false := fun h => BitVec.getLsbD_of_ge v j (Nat.le_of_not_lt h)
    by_cases h3 : j < 16
    · simp [h, h3]
    · simp [h, h3, h16]

/-- What an OR of placed bits holds at position `j`: the bit of whatever index is placed there. -/
theorem orBits_foldl_getLsbD (bit : Fin 16 → Bool) (pos : Fin 16 → Fin 16) (j : Fin 16) (l : List (Fin 16))
    (acc : Word) :
    (l.foldl (fun acc i => acc ||| (zextBit 16 (bit i) <<< (pos i).val)) acc).getLsbD j.val =
      (acc.getLsbD j.val || l.any fun i => decide (pos i = j) && bit i) := by
  induction l generalizing acc with
  | nil => simp only [List.foldl_nil, List.any_nil, Bool.or_false]
  | cons i l ih =>
    have key : (zextBit 16 (bit i) <<< (pos i).val).getLsbD j.val = (decide (pos i = j) && bit i) := by
      rw [zextBit_shiftLeft_getLsbD, Bool.eq_iff_iff]
      simp only [Bool.and_eq_true, decide_eq_true_eq, j.isLt, true_and]
      rw [eq_comm, Fin.ext_iff]
    rw [List.foldl_cons, ih, BitVec.getLsbD_or, key, List.any_cons, Bool.or_assoc]

theorem orBits_getLsbD (bit : Fin 16 → Bool) (pos : Fin 16 → Fin 16) (j : Fin 16) :
    (orBits bit pos).getLsbD j.val = decide (∃ i, pos i = j ∧ bit i = true) := by
  rw [orBits, orBits_foldl_getLsbD]
  simp only [BitVec.ofNat_eq_ofNat, BitVec.getLsbD_zero, Bool.false_or]
  rw [Bool.eq_iff_iff, decide_eq_true_iff, List.any_eq_true]
  simp only [List.mem_finRange, true_and, Bool.and_eq_true, decide_eq_true_eq]

/-- Where `pos` sends only `i` to its position, `orBits` holds bit `i` there. -/
theorem orBits_at (bit : Fin 16 → Bool) (pos : Fin 16 → Fin 16) (inj : ∀ i j, pos i = pos j → i = j) (i : Fin 16) :
    (orBits bit pos).getLsbD (pos i).val = bit i := by
  rw [orBits_getLsbD, Bool.eq_iff_iff, decide_eq_true_iff]
  exact ⟨fun ⟨j, h, hb⟩ => inj j i h ▸ hb, fun h => ⟨i, rfl, h⟩⟩

end Sys2Proof.Machine
end

