-- ==== Sys2Proof/Laws/State.lean ====
section
/-! SUPPORT. What each named update does to each field of State: one lemma per field and update, so that no proof
unfolds a record update. -/

namespace Sys2Proof.Machine

-- bufWrite
@[simp] theorem bufWrite_buf (s : State) (k : Nat) (w : Word) : (bufWrite s k w).buf = s.buf.set k w := rfl
@[simp] theorem bufWrite_dp (s : State) (k : Nat) (w : Word) : (bufWrite s k w).dp = s.dp := rfl
@[simp] theorem bufWrite_idx (s : State) (k : Nat) (w : Word) : (bufWrite s k w).idx = s.idx := rfl
@[simp] theorem bufWrite_tickPending (s : State) (k : Nat) (w : Word) : (bufWrite s k w).tickPending = s.tickPending := rfl
@[simp] theorem bufWrite_segSr (s : State) (k : Nat) (w : Word) : (bufWrite s k w).segSr = s.segSr := rfl
@[simp] theorem bufWrite_segLatch (s : State) (k : Nat) (w : Word) : (bufWrite s k w).segLatch = s.segLatch := rfl
@[simp] theorem bufWrite_digSr (s : State) (k : Nat) (w : Word) : (bufWrite s k w).digSr = s.digSr := rfl
@[simp] theorem bufWrite_digLatch (s : State) (k : Nat) (w : Word) : (bufWrite s k w).digLatch = s.digLatch := rfl
@[simp] theorem bufWrite_dataLine (s : State) (k : Nat) (w : Word) : (bufWrite s k w).dataLine = s.dataLine := rfl
@[simp] theorem bufWrite_sinkEn (s : State) (k : Nat) (w : Word) : (bufWrite s k w).sinkEn = s.sinkEn := rfl
@[simp] theorem bufWrite_dpLineN (s : State) (k : Nat) (w : Word) : (bufWrite s k w).dpLineN = s.dpLineN := rfl
@[simp] theorem bufWrite_oeDig (s : State) (k : Nat) (w : Word) : (bufWrite s k w).oeDig = s.oeDig := rfl
@[simp] theorem bufWrite_oeSeg (s : State) (k : Nat) (w : Word) : (bufWrite s k w).oeSeg = s.oeSeg := rfl
@[simp] theorem bufWrite_pwmPeriod (s : State) (k : Nat) (w : Word) : (bufWrite s k w).pwmPeriod = s.pwmPeriod := rfl
@[simp] theorem bufWrite_cmpAm (s : State) (k : Nat) (w : Word) : (bufWrite s k w).cmpAm = s.cmpAm := rfl
@[simp] theorem bufWrite_cmpPm (s : State) (k : Nat) (w : Word) : (bufWrite s k w).cmpPm = s.cmpPm := rfl
@[simp] theorem bufWrite_cmpSep (s : State) (k : Nat) (w : Word) : (bufWrite s k w).cmpSep = s.cmpSep := rfl
@[simp] theorem bufWrite_enAm (s : State) (k : Nat) (w : Word) : (bufWrite s k w).enAm = s.enAm := rfl
@[simp] theorem bufWrite_enPm (s : State) (k : Nat) (w : Word) : (bufWrite s k w).enPm = s.enPm := rfl
@[simp] theorem bufWrite_enSep (s : State) (k : Nat) (w : Word) : (bufWrite s k w).enSep = s.enSep := rfl
@[simp] theorem bufWrite_resp (s : State) (k : Nat) (w : Word) : (bufWrite s k w).resp = s.resp := rfl
@[simp] theorem bufWrite_fault (s : State) (k : Nat) (w : Word) : (bufWrite s k w).fault = s.fault := rfl
@[simp] theorem bufWrite_cfg (s : State) (k : Nat) (w : Word) : (bufWrite s k w).cfg = s.cfg := rfl
@[simp] theorem bufWrite_schedule (s : State) (k : Nat) (w : Word) : (bufWrite s k w).schedule = s.schedule := rfl
@[simp] theorem bufWrite_drawCount (s : State) (k : Nat) (w : Word) : (bufWrite s k w).drawCount = s.drawCount := rfl

-- dpWrite
@[simp] theorem dpWrite_buf (s : State) (k : Nat) (v : Bool) : (dpWrite s k v).buf = s.buf := rfl
@[simp] theorem dpWrite_dp (s : State) (k : Nat) (v : Bool) : (dpWrite s k v).dp = writeBit s.dp k v := rfl
@[simp] theorem dpWrite_idx (s : State) (k : Nat) (v : Bool) : (dpWrite s k v).idx = s.idx := rfl
@[simp] theorem dpWrite_tickPending (s : State) (k : Nat) (v : Bool) : (dpWrite s k v).tickPending = s.tickPending := rfl
@[simp] theorem dpWrite_segSr (s : State) (k : Nat) (v : Bool) : (dpWrite s k v).segSr = s.segSr := rfl
@[simp] theorem dpWrite_segLatch (s : State) (k : Nat) (v : Bool) : (dpWrite s k v).segLatch = s.segLatch := rfl
@[simp] theorem dpWrite_digSr (s : State) (k : Nat) (v : Bool) : (dpWrite s k v).digSr = s.digSr := rfl
@[simp] theorem dpWrite_digLatch (s : State) (k : Nat) (v : Bool) : (dpWrite s k v).digLatch = s.digLatch := rfl
@[simp] theorem dpWrite_dataLine (s : State) (k : Nat) (v : Bool) : (dpWrite s k v).dataLine = s.dataLine := rfl
@[simp] theorem dpWrite_sinkEn (s : State) (k : Nat) (v : Bool) : (dpWrite s k v).sinkEn = s.sinkEn := rfl
@[simp] theorem dpWrite_dpLineN (s : State) (k : Nat) (v : Bool) : (dpWrite s k v).dpLineN = s.dpLineN := rfl
@[simp] theorem dpWrite_oeDig (s : State) (k : Nat) (v : Bool) : (dpWrite s k v).oeDig = s.oeDig := rfl
@[simp] theorem dpWrite_oeSeg (s : State) (k : Nat) (v : Bool) : (dpWrite s k v).oeSeg = s.oeSeg := rfl
@[simp] theorem dpWrite_pwmPeriod (s : State) (k : Nat) (v : Bool) : (dpWrite s k v).pwmPeriod = s.pwmPeriod := rfl
@[simp] theorem dpWrite_cmpAm (s : State) (k : Nat) (v : Bool) : (dpWrite s k v).cmpAm = s.cmpAm := rfl
@[simp] theorem dpWrite_cmpPm (s : State) (k : Nat) (v : Bool) : (dpWrite s k v).cmpPm = s.cmpPm := rfl
@[simp] theorem dpWrite_cmpSep (s : State) (k : Nat) (v : Bool) : (dpWrite s k v).cmpSep = s.cmpSep := rfl
@[simp] theorem dpWrite_enAm (s : State) (k : Nat) (v : Bool) : (dpWrite s k v).enAm = s.enAm := rfl
@[simp] theorem dpWrite_enPm (s : State) (k : Nat) (v : Bool) : (dpWrite s k v).enPm = s.enPm := rfl
@[simp] theorem dpWrite_enSep (s : State) (k : Nat) (v : Bool) : (dpWrite s k v).enSep = s.enSep := rfl
@[simp] theorem dpWrite_resp (s : State) (k : Nat) (v : Bool) : (dpWrite s k v).resp = s.resp := rfl
@[simp] theorem dpWrite_fault (s : State) (k : Nat) (v : Bool) : (dpWrite s k v).fault = s.fault := rfl
@[simp] theorem dpWrite_cfg (s : State) (k : Nat) (v : Bool) : (dpWrite s k v).cfg = s.cfg := rfl
@[simp] theorem dpWrite_schedule (s : State) (k : Nat) (v : Bool) : (dpWrite s k v).schedule = s.schedule := rfl
@[simp] theorem dpWrite_drawCount (s : State) (k : Nat) (v : Bool) : (dpWrite s k v).drawCount = s.drawCount := rfl

-- respond
@[simp] theorem respond_buf (v : Word) (s : State) : (respond v s).buf = s.buf := rfl
@[simp] theorem respond_dp (v : Word) (s : State) : (respond v s).dp = s.dp := rfl
@[simp] theorem respond_idx (v : Word) (s : State) : (respond v s).idx = s.idx := rfl
@[simp] theorem respond_tickPending (v : Word) (s : State) : (respond v s).tickPending = s.tickPending := rfl
@[simp] theorem respond_segSr (v : Word) (s : State) : (respond v s).segSr = s.segSr := rfl
@[simp] theorem respond_segLatch (v : Word) (s : State) : (respond v s).segLatch = s.segLatch := rfl
@[simp] theorem respond_digSr (v : Word) (s : State) : (respond v s).digSr = s.digSr := rfl
@[simp] theorem respond_digLatch (v : Word) (s : State) : (respond v s).digLatch = s.digLatch := rfl
@[simp] theorem respond_dataLine (v : Word) (s : State) : (respond v s).dataLine = s.dataLine := rfl
@[simp] theorem respond_sinkEn (v : Word) (s : State) : (respond v s).sinkEn = s.sinkEn := rfl
@[simp] theorem respond_dpLineN (v : Word) (s : State) : (respond v s).dpLineN = s.dpLineN := rfl
@[simp] theorem respond_oeDig (v : Word) (s : State) : (respond v s).oeDig = s.oeDig := rfl
@[simp] theorem respond_oeSeg (v : Word) (s : State) : (respond v s).oeSeg = s.oeSeg := rfl
@[simp] theorem respond_pwmPeriod (v : Word) (s : State) : (respond v s).pwmPeriod = s.pwmPeriod := rfl
@[simp] theorem respond_cmpAm (v : Word) (s : State) : (respond v s).cmpAm = s.cmpAm := rfl
@[simp] theorem respond_cmpPm (v : Word) (s : State) : (respond v s).cmpPm = s.cmpPm := rfl
@[simp] theorem respond_cmpSep (v : Word) (s : State) : (respond v s).cmpSep = s.cmpSep := rfl
@[simp] theorem respond_enAm (v : Word) (s : State) : (respond v s).enAm = s.enAm := rfl
@[simp] theorem respond_enPm (v : Word) (s : State) : (respond v s).enPm = s.enPm := rfl
@[simp] theorem respond_enSep (v : Word) (s : State) : (respond v s).enSep = s.enSep := rfl
@[simp] theorem respond_resp (v : Word) (s : State) : (respond v s).resp = some v := rfl
@[simp] theorem respond_fault (v : Word) (s : State) : (respond v s).fault = s.fault := rfl
@[simp] theorem respond_cfg (v : Word) (s : State) : (respond v s).cfg = s.cfg := rfl
@[simp] theorem respond_schedule (v : Word) (s : State) : (respond v s).schedule = s.schedule := rfl
@[simp] theorem respond_drawCount (v : Word) (s : State) : (respond v s).drawCount = s.drawCount := rfl

-- respondNone
@[simp] theorem respondNone_buf (s : State) : (respondNone s).buf = s.buf := rfl
@[simp] theorem respondNone_dp (s : State) : (respondNone s).dp = s.dp := rfl
@[simp] theorem respondNone_idx (s : State) : (respondNone s).idx = s.idx := rfl
@[simp] theorem respondNone_tickPending (s : State) : (respondNone s).tickPending = s.tickPending := rfl
@[simp] theorem respondNone_segSr (s : State) : (respondNone s).segSr = s.segSr := rfl
@[simp] theorem respondNone_segLatch (s : State) : (respondNone s).segLatch = s.segLatch := rfl
@[simp] theorem respondNone_digSr (s : State) : (respondNone s).digSr = s.digSr := rfl
@[simp] theorem respondNone_digLatch (s : State) : (respondNone s).digLatch = s.digLatch := rfl
@[simp] theorem respondNone_dataLine (s : State) : (respondNone s).dataLine = s.dataLine := rfl
@[simp] theorem respondNone_sinkEn (s : State) : (respondNone s).sinkEn = s.sinkEn := rfl
@[simp] theorem respondNone_dpLineN (s : State) : (respondNone s).dpLineN = s.dpLineN := rfl
@[simp] theorem respondNone_oeDig (s : State) : (respondNone s).oeDig = s.oeDig := rfl
@[simp] theorem respondNone_oeSeg (s : State) : (respondNone s).oeSeg = s.oeSeg := rfl
@[simp] theorem respondNone_pwmPeriod (s : State) : (respondNone s).pwmPeriod = s.pwmPeriod := rfl
@[simp] theorem respondNone_cmpAm (s : State) : (respondNone s).cmpAm = s.cmpAm := rfl
@[simp] theorem respondNone_cmpPm (s : State) : (respondNone s).cmpPm = s.cmpPm := rfl
@[simp] theorem respondNone_cmpSep (s : State) : (respondNone s).cmpSep = s.cmpSep := rfl
@[simp] theorem respondNone_enAm (s : State) : (respondNone s).enAm = s.enAm := rfl
@[simp] theorem respondNone_enPm (s : State) : (respondNone s).enPm = s.enPm := rfl
@[simp] theorem respondNone_enSep (s : State) : (respondNone s).enSep = s.enSep := rfl
@[simp] theorem respondNone_resp (s : State) : (respondNone s).resp = none := rfl
@[simp] theorem respondNone_fault (s : State) : (respondNone s).fault = s.fault := rfl
@[simp] theorem respondNone_cfg (s : State) : (respondNone s).cfg = s.cfg := rfl
@[simp] theorem respondNone_schedule (s : State) : (respondNone s).schedule = s.schedule := rfl
@[simp] theorem respondNone_drawCount (s : State) : (respondNone s).drawCount = s.drawCount := rfl

-- raiseFault
@[simp] theorem raiseFault_buf (r : FaultRecord) (s : State) : (raiseFault r s).buf = s.buf := rfl
@[simp] theorem raiseFault_dp (r : FaultRecord) (s : State) : (raiseFault r s).dp = s.dp := rfl
@[simp] theorem raiseFault_idx (r : FaultRecord) (s : State) : (raiseFault r s).idx = s.idx := rfl
@[simp] theorem raiseFault_tickPending (r : FaultRecord) (s : State) : (raiseFault r s).tickPending = s.tickPending := rfl
@[simp] theorem raiseFault_segSr (r : FaultRecord) (s : State) : (raiseFault r s).segSr = s.segSr := rfl
@[simp] theorem raiseFault_segLatch (r : FaultRecord) (s : State) : (raiseFault r s).segLatch = s.segLatch := rfl
@[simp] theorem raiseFault_digSr (r : FaultRecord) (s : State) : (raiseFault r s).digSr = s.digSr := rfl
@[simp] theorem raiseFault_digLatch (r : FaultRecord) (s : State) : (raiseFault r s).digLatch = s.digLatch := rfl
@[simp] theorem raiseFault_dataLine (r : FaultRecord) (s : State) : (raiseFault r s).dataLine = s.dataLine := rfl
@[simp] theorem raiseFault_sinkEn (r : FaultRecord) (s : State) : (raiseFault r s).sinkEn = s.sinkEn := rfl
@[simp] theorem raiseFault_dpLineN (r : FaultRecord) (s : State) : (raiseFault r s).dpLineN = s.dpLineN := rfl
@[simp] theorem raiseFault_oeDig (r : FaultRecord) (s : State) : (raiseFault r s).oeDig = s.oeDig := rfl
@[simp] theorem raiseFault_oeSeg (r : FaultRecord) (s : State) : (raiseFault r s).oeSeg = s.oeSeg := rfl
@[simp] theorem raiseFault_pwmPeriod (r : FaultRecord) (s : State) : (raiseFault r s).pwmPeriod = s.pwmPeriod := rfl
@[simp] theorem raiseFault_cmpAm (r : FaultRecord) (s : State) : (raiseFault r s).cmpAm = s.cmpAm := rfl
@[simp] theorem raiseFault_cmpPm (r : FaultRecord) (s : State) : (raiseFault r s).cmpPm = s.cmpPm := rfl
@[simp] theorem raiseFault_cmpSep (r : FaultRecord) (s : State) : (raiseFault r s).cmpSep = s.cmpSep := rfl
@[simp] theorem raiseFault_enAm (r : FaultRecord) (s : State) : (raiseFault r s).enAm = s.enAm := rfl
@[simp] theorem raiseFault_enPm (r : FaultRecord) (s : State) : (raiseFault r s).enPm = s.enPm := rfl
@[simp] theorem raiseFault_enSep (r : FaultRecord) (s : State) : (raiseFault r s).enSep = s.enSep := rfl
@[simp] theorem raiseFault_resp (r : FaultRecord) (s : State) : (raiseFault r s).resp = none := rfl
@[simp] theorem raiseFault_fault (r : FaultRecord) (s : State) : (raiseFault r s).fault = some r := rfl
@[simp] theorem raiseFault_cfg (r : FaultRecord) (s : State) : (raiseFault r s).cfg = s.cfg := rfl
@[simp] theorem raiseFault_schedule (r : FaultRecord) (s : State) : (raiseFault r s).schedule = s.schedule := rfl
@[simp] theorem raiseFault_drawCount (r : FaultRecord) (s : State) : (raiseFault r s).drawCount = s.drawCount := rfl

-- programChannels
@[simp] theorem programChannels_buf (c : Word) (s : State) : (programChannels c s).buf = s.buf := rfl
@[simp] theorem programChannels_dp (c : Word) (s : State) : (programChannels c s).dp = s.dp := rfl
@[simp] theorem programChannels_idx (c : Word) (s : State) : (programChannels c s).idx = s.idx := rfl
@[simp] theorem programChannels_tickPending (c : Word) (s : State) : (programChannels c s).tickPending = s.tickPending := rfl
@[simp] theorem programChannels_segSr (c : Word) (s : State) : (programChannels c s).segSr = s.segSr := rfl
@[simp] theorem programChannels_segLatch (c : Word) (s : State) : (programChannels c s).segLatch = s.segLatch := rfl
@[simp] theorem programChannels_digSr (c : Word) (s : State) : (programChannels c s).digSr = s.digSr := rfl
@[simp] theorem programChannels_digLatch (c : Word) (s : State) : (programChannels c s).digLatch = s.digLatch := rfl
@[simp] theorem programChannels_dataLine (c : Word) (s : State) : (programChannels c s).dataLine = s.dataLine := rfl
@[simp] theorem programChannels_sinkEn (c : Word) (s : State) : (programChannels c s).sinkEn = s.sinkEn := rfl
@[simp] theorem programChannels_dpLineN (c : Word) (s : State) : (programChannels c s).dpLineN = s.dpLineN := rfl
@[simp] theorem programChannels_oeDig (c : Word) (s : State) : (programChannels c s).oeDig = s.oeDig := rfl
@[simp] theorem programChannels_oeSeg (c : Word) (s : State) : (programChannels c s).oeSeg = s.oeSeg := rfl
@[simp] theorem programChannels_pwmPeriod (c : Word) (s : State) : (programChannels c s).pwmPeriod = s.cfg.pwmPeriod := rfl
@[simp] theorem programChannels_cmpAm (c : Word) (s : State) : (programChannels c s).cmpAm = c := rfl
@[simp] theorem programChannels_cmpPm (c : Word) (s : State) : (programChannels c s).cmpPm = c := rfl
@[simp] theorem programChannels_cmpSep (c : Word) (s : State) : (programChannels c s).cmpSep = c := rfl
@[simp] theorem programChannels_enAm (c : Word) (s : State) : (programChannels c s).enAm = s.enAm := rfl
@[simp] theorem programChannels_enPm (c : Word) (s : State) : (programChannels c s).enPm = s.enPm := rfl
@[simp] theorem programChannels_enSep (c : Word) (s : State) : (programChannels c s).enSep = s.enSep := rfl
@[simp] theorem programChannels_resp (c : Word) (s : State) : (programChannels c s).resp = s.resp := rfl
@[simp] theorem programChannels_fault (c : Word) (s : State) : (programChannels c s).fault = s.fault := rfl
@[simp] theorem programChannels_cfg (c : Word) (s : State) : (programChannels c s).cfg = s.cfg := rfl
@[simp] theorem programChannels_schedule (c : Word) (s : State) : (programChannels c s).schedule = s.schedule := rfl
@[simp] theorem programChannels_drawCount (c : Word) (s : State) : (programChannels c s).drawCount = s.drawCount := rfl

-- tickStep
@[simp] theorem tickStep_buf (s : State) : (tickStep s).buf = s.buf := rfl
@[simp] theorem tickStep_dp (s : State) : (tickStep s).dp = s.dp := rfl
@[simp] theorem tickStep_idx (s : State) : (tickStep s).idx = s.idx := rfl
@[simp] theorem tickStep_tickPending (s : State) : (tickStep s).tickPending = true := rfl
@[simp] theorem tickStep_segSr (s : State) : (tickStep s).segSr = s.segSr := rfl
@[simp] theorem tickStep_segLatch (s : State) : (tickStep s).segLatch = s.segLatch := rfl
@[simp] theorem tickStep_digSr (s : State) : (tickStep s).digSr = s.digSr := rfl
@[simp] theorem tickStep_digLatch (s : State) : (tickStep s).digLatch = s.digLatch := rfl
@[simp] theorem tickStep_dataLine (s : State) : (tickStep s).dataLine = s.dataLine := rfl
@[simp] theorem tickStep_sinkEn (s : State) : (tickStep s).sinkEn = s.sinkEn := rfl
@[simp] theorem tickStep_dpLineN (s : State) : (tickStep s).dpLineN = s.dpLineN := rfl
@[simp] theorem tickStep_oeDig (s : State) : (tickStep s).oeDig = s.oeDig := rfl
@[simp] theorem tickStep_oeSeg (s : State) : (tickStep s).oeSeg = s.oeSeg := rfl
@[simp] theorem tickStep_pwmPeriod (s : State) : (tickStep s).pwmPeriod = s.pwmPeriod := rfl
@[simp] theorem tickStep_cmpAm (s : State) : (tickStep s).cmpAm = s.cmpAm := rfl
@[simp] theorem tickStep_cmpPm (s : State) : (tickStep s).cmpPm = s.cmpPm := rfl
@[simp] theorem tickStep_cmpSep (s : State) : (tickStep s).cmpSep = s.cmpSep := rfl
@[simp] theorem tickStep_enAm (s : State) : (tickStep s).enAm = s.enAm := rfl
@[simp] theorem tickStep_enPm (s : State) : (tickStep s).enPm = s.enPm := rfl
@[simp] theorem tickStep_enSep (s : State) : (tickStep s).enSep = s.enSep := rfl
@[simp] theorem tickStep_resp (s : State) : (tickStep s).resp = s.resp := rfl
@[simp] theorem tickStep_fault (s : State) : (tickStep s).fault = s.fault := rfl
@[simp] theorem tickStep_cfg (s : State) : (tickStep s).cfg = s.cfg := rfl
@[simp] theorem tickStep_schedule (s : State) : (tickStep s).schedule = s.schedule := rfl
@[simp] theorem tickStep_drawCount (s : State) : (tickStep s).drawCount = s.drawCount := rfl

-- acknowledge
@[simp] theorem acknowledge_buf (s : State) : (acknowledge s).buf = s.buf := rfl
@[simp] theorem acknowledge_dp (s : State) : (acknowledge s).dp = s.dp := rfl
@[simp] theorem acknowledge_idx (s : State) : (acknowledge s).idx = s.idx := rfl
@[simp] theorem acknowledge_tickPending (s : State) : (acknowledge s).tickPending = false := rfl
@[simp] theorem acknowledge_segSr (s : State) : (acknowledge s).segSr = s.segSr := rfl
@[simp] theorem acknowledge_segLatch (s : State) : (acknowledge s).segLatch = s.segLatch := rfl
@[simp] theorem acknowledge_digSr (s : State) : (acknowledge s).digSr = s.digSr := rfl
@[simp] theorem acknowledge_digLatch (s : State) : (acknowledge s).digLatch = s.digLatch := rfl
@[simp] theorem acknowledge_dataLine (s : State) : (acknowledge s).dataLine = s.dataLine := rfl
@[simp] theorem acknowledge_sinkEn (s : State) : (acknowledge s).sinkEn = s.sinkEn := rfl
@[simp] theorem acknowledge_dpLineN (s : State) : (acknowledge s).dpLineN = s.dpLineN := rfl
@[simp] theorem acknowledge_oeDig (s : State) : (acknowledge s).oeDig = s.oeDig := rfl
@[simp] theorem acknowledge_oeSeg (s : State) : (acknowledge s).oeSeg = s.oeSeg := rfl
@[simp] theorem acknowledge_pwmPeriod (s : State) : (acknowledge s).pwmPeriod = s.pwmPeriod := rfl
@[simp] theorem acknowledge_cmpAm (s : State) : (acknowledge s).cmpAm = s.cmpAm := rfl
@[simp] theorem acknowledge_cmpPm (s : State) : (acknowledge s).cmpPm = s.cmpPm := rfl
@[simp] theorem acknowledge_cmpSep (s : State) : (acknowledge s).cmpSep = s.cmpSep := rfl
@[simp] theorem acknowledge_enAm (s : State) : (acknowledge s).enAm = s.enAm := rfl
@[simp] theorem acknowledge_enPm (s : State) : (acknowledge s).enPm = s.enPm := rfl
@[simp] theorem acknowledge_enSep (s : State) : (acknowledge s).enSep = s.enSep := rfl
@[simp] theorem acknowledge_resp (s : State) : (acknowledge s).resp = s.resp := rfl
@[simp] theorem acknowledge_fault (s : State) : (acknowledge s).fault = s.fault := rfl
@[simp] theorem acknowledge_cfg (s : State) : (acknowledge s).cfg = s.cfg := rfl
@[simp] theorem acknowledge_schedule (s : State) : (acknowledge s).schedule = s.schedule := rfl
@[simp] theorem acknowledge_drawCount (s : State) : (acknowledge s).drawCount = s.drawCount := rfl

-- advanceIndex
@[simp] theorem advanceIndex_buf (k : Nat) (s : State) : (advanceIndex k s).buf = s.buf := rfl
@[simp] theorem advanceIndex_dp (k : Nat) (s : State) : (advanceIndex k s).dp = s.dp := rfl
@[simp] theorem advanceIndex_idx (k : Nat) (s : State) : (advanceIndex k s).idx = (k + 1) % s.cfg.ndigits := rfl
@[simp] theorem advanceIndex_tickPending (k : Nat) (s : State) : (advanceIndex k s).tickPending = s.tickPending := rfl
@[simp] theorem advanceIndex_segSr (k : Nat) (s : State) : (advanceIndex k s).segSr = s.segSr := rfl
@[simp] theorem advanceIndex_segLatch (k : Nat) (s : State) : (advanceIndex k s).segLatch = s.segLatch := rfl
@[simp] theorem advanceIndex_digSr (k : Nat) (s : State) : (advanceIndex k s).digSr = s.digSr := rfl
@[simp] theorem advanceIndex_digLatch (k : Nat) (s : State) : (advanceIndex k s).digLatch = s.digLatch := rfl
@[simp] theorem advanceIndex_dataLine (k : Nat) (s : State) : (advanceIndex k s).dataLine = s.dataLine := rfl
@[simp] theorem advanceIndex_sinkEn (k : Nat) (s : State) : (advanceIndex k s).sinkEn = s.sinkEn := rfl
@[simp] theorem advanceIndex_dpLineN (k : Nat) (s : State) : (advanceIndex k s).dpLineN = s.dpLineN := rfl
@[simp] theorem advanceIndex_oeDig (k : Nat) (s : State) : (advanceIndex k s).oeDig = s.oeDig := rfl
@[simp] theorem advanceIndex_oeSeg (k : Nat) (s : State) : (advanceIndex k s).oeSeg = s.oeSeg := rfl
@[simp] theorem advanceIndex_pwmPeriod (k : Nat) (s : State) : (advanceIndex k s).pwmPeriod = s.pwmPeriod := rfl
@[simp] theorem advanceIndex_cmpAm (k : Nat) (s : State) : (advanceIndex k s).cmpAm = s.cmpAm := rfl
@[simp] theorem advanceIndex_cmpPm (k : Nat) (s : State) : (advanceIndex k s).cmpPm = s.cmpPm := rfl
@[simp] theorem advanceIndex_cmpSep (k : Nat) (s : State) : (advanceIndex k s).cmpSep = s.cmpSep := rfl
@[simp] theorem advanceIndex_enAm (k : Nat) (s : State) : (advanceIndex k s).enAm = s.enAm := rfl
@[simp] theorem advanceIndex_enPm (k : Nat) (s : State) : (advanceIndex k s).enPm = s.enPm := rfl
@[simp] theorem advanceIndex_enSep (k : Nat) (s : State) : (advanceIndex k s).enSep = s.enSep := rfl
@[simp] theorem advanceIndex_resp (k : Nat) (s : State) : (advanceIndex k s).resp = s.resp := rfl
@[simp] theorem advanceIndex_fault (k : Nat) (s : State) : (advanceIndex k s).fault = s.fault := rfl
@[simp] theorem advanceIndex_cfg (k : Nat) (s : State) : (advanceIndex k s).cfg = s.cfg := rfl
@[simp] theorem advanceIndex_schedule (k : Nat) (s : State) : (advanceIndex k s).schedule = s.schedule := rfl
@[simp] theorem advanceIndex_drawCount (k : Nat) (s : State) : (advanceIndex k s).drawCount = s.drawCount := rfl

-- issue
@[simp] theorem issue_buf (w : CommandWord) (s : State) : (issue w s).buf = s.buf := rfl
@[simp] theorem issue_dp (w : CommandWord) (s : State) : (issue w s).dp = s.dp := rfl
@[simp] theorem issue_idx (w : CommandWord) (s : State) : (issue w s).idx = s.idx := rfl
@[simp] theorem issue_tickPending (w : CommandWord) (s : State) : (issue w s).tickPending = s.tickPending := rfl
@[simp] theorem issue_segSr (w : CommandWord) (s : State) : (issue w s).segSr = s.segSr := rfl
@[simp] theorem issue_segLatch (w : CommandWord) (s : State) : (issue w s).segLatch = s.segLatch := rfl
@[simp] theorem issue_digSr (w : CommandWord) (s : State) : (issue w s).digSr = s.digSr := rfl
@[simp] theorem issue_digLatch (w : CommandWord) (s : State) : (issue w s).digLatch = s.digLatch := rfl
@[simp] theorem issue_dataLine (w : CommandWord) (s : State) : (issue w s).dataLine = s.dataLine := rfl
@[simp] theorem issue_sinkEn (w : CommandWord) (s : State) : (issue w s).sinkEn = s.sinkEn := rfl
@[simp] theorem issue_dpLineN (w : CommandWord) (s : State) : (issue w s).dpLineN = s.dpLineN := rfl
@[simp] theorem issue_oeDig (w : CommandWord) (s : State) : (issue w s).oeDig = s.oeDig := rfl
@[simp] theorem issue_oeSeg (w : CommandWord) (s : State) : (issue w s).oeSeg = s.oeSeg := rfl
@[simp] theorem issue_pwmPeriod (w : CommandWord) (s : State) : (issue w s).pwmPeriod = s.pwmPeriod := rfl
@[simp] theorem issue_cmpAm (w : CommandWord) (s : State) : (issue w s).cmpAm = s.cmpAm := rfl
@[simp] theorem issue_cmpPm (w : CommandWord) (s : State) : (issue w s).cmpPm = s.cmpPm := rfl
@[simp] theorem issue_cmpSep (w : CommandWord) (s : State) : (issue w s).cmpSep = s.cmpSep := rfl
@[simp] theorem issue_enAm (w : CommandWord) (s : State) : (issue w s).enAm = s.enAm := rfl
@[simp] theorem issue_enPm (w : CommandWord) (s : State) : (issue w s).enPm = s.enPm := rfl
@[simp] theorem issue_enSep (w : CommandWord) (s : State) : (issue w s).enSep = s.enSep := rfl
@[simp] theorem issue_resp (w : CommandWord) (s : State) : (issue w s).resp = s.resp := rfl
@[simp] theorem issue_fault (w : CommandWord) (s : State) : (issue w s).fault = s.fault := rfl
@[simp] theorem issue_cfg (w : CommandWord) (s : State) : (issue w s).cfg = s.cfg := rfl
@[simp] theorem issue_schedule (w : CommandWord) (s : State) : (issue w s).schedule = .command w :: s.schedule := rfl
@[simp] theorem issue_drawCount (w : CommandWord) (s : State) : (issue w s).drawCount = s.drawCount := rfl

-- the state after Reset
@[simp] theorem afterReset_buf (c : Config) (d : ResetDraw) (sch : List Turn) (n : Nat) :
    (State.afterReset c d sch n).buf = List.replicate c.ndigits 0xFFFF#16 := rfl
@[simp] theorem afterReset_dp (c : Config) (d : ResetDraw) (sch : List Turn) (n : Nat) :
    (State.afterReset c d sch n).dp = 0 := rfl
@[simp] theorem afterReset_idx (c : Config) (d : ResetDraw) (sch : List Turn) (n : Nat) :
    (State.afterReset c d sch n).idx = 0 := rfl
@[simp] theorem afterReset_tickPending (c : Config) (d : ResetDraw) (sch : List Turn) (n : Nat) :
    (State.afterReset c d sch n).tickPending = false := rfl
@[simp] theorem afterReset_segSr (c : Config) (d : ResetDraw) (sch : List Turn) (n : Nat) :
    (State.afterReset c d sch n).segSr = d.segSr := rfl
@[simp] theorem afterReset_segLatch (c : Config) (d : ResetDraw) (sch : List Turn) (n : Nat) :
    (State.afterReset c d sch n).segLatch = d.segLatch := rfl
@[simp] theorem afterReset_digSr (c : Config) (d : ResetDraw) (sch : List Turn) (n : Nat) :
    (State.afterReset c d sch n).digSr = d.digSr &&& lowMask c.digitDepth := rfl
@[simp] theorem afterReset_digLatch (c : Config) (d : ResetDraw) (sch : List Turn) (n : Nat) :
    (State.afterReset c d sch n).digLatch = d.digLatch &&& lowMask c.digitDepth := rfl
@[simp] theorem afterReset_dataLine (c : Config) (d : ResetDraw) (sch : List Turn) (n : Nat) :
    (State.afterReset c d sch n).dataLine = d.dataLine := rfl
@[simp] theorem afterReset_sinkEn (c : Config) (d : ResetDraw) (sch : List Turn) (n : Nat) :
    (State.afterReset c d sch n).sinkEn = false := rfl
@[simp] theorem afterReset_dpLineN (c : Config) (d : ResetDraw) (sch : List Turn) (n : Nat) :
    (State.afterReset c d sch n).dpLineN = d.dpLineN := rfl
@[simp] theorem afterReset_oeDig (c : Config) (d : ResetDraw) (sch : List Turn) (n : Nat) :
    (State.afterReset c d sch n).oeDig = false := rfl
@[simp] theorem afterReset_oeSeg (c : Config) (d : ResetDraw) (sch : List Turn) (n : Nat) :
    (State.afterReset c d sch n).oeSeg = false := rfl
@[simp] theorem afterReset_pwmPeriod (c : Config) (d : ResetDraw) (sch : List Turn) (n : Nat) :
    (State.afterReset c d sch n).pwmPeriod = 0 := rfl
@[simp] theorem afterReset_cmpAm (c : Config) (d : ResetDraw) (sch : List Turn) (n : Nat) :
    (State.afterReset c d sch n).cmpAm = 0 := rfl
@[simp] theorem afterReset_cmpPm (c : Config) (d : ResetDraw) (sch : List Turn) (n : Nat) :
    (State.afterReset c d sch n).cmpPm = 0 := rfl
@[simp] theorem afterReset_cmpSep (c : Config) (d : ResetDraw) (sch : List Turn) (n : Nat) :
    (State.afterReset c d sch n).cmpSep = 0 := rfl
@[simp] theorem afterReset_enAm (c : Config) (d : ResetDraw) (sch : List Turn) (n : Nat) :
    (State.afterReset c d sch n).enAm = false := rfl
@[simp] theorem afterReset_enPm (c : Config) (d : ResetDraw) (sch : List Turn) (n : Nat) :
    (State.afterReset c d sch n).enPm = false := rfl
@[simp] theorem afterReset_enSep (c : Config) (d : ResetDraw) (sch : List Turn) (n : Nat) :
    (State.afterReset c d sch n).enSep = false := rfl
@[simp] theorem afterReset_resp (c : Config) (d : ResetDraw) (sch : List Turn) (n : Nat) :
    (State.afterReset c d sch n).resp = none := rfl
@[simp] theorem afterReset_fault (c : Config) (d : ResetDraw) (sch : List Turn) (n : Nat) :
    (State.afterReset c d sch n).fault = none := rfl
@[simp] theorem afterReset_cfg (c : Config) (d : ResetDraw) (sch : List Turn) (n : Nat) :
    (State.afterReset c d sch n).cfg = c := rfl
@[simp] theorem afterReset_schedule (c : Config) (d : ResetDraw) (sch : List Turn) (n : Nat) :
    (State.afterReset c d sch n).schedule = sch := rfl
@[simp] theorem afterReset_drawCount (c : Config) (d : ResetDraw) (sch : List Turn) (n : Nat) :
    (State.afterReset c d sch n).drawCount = n := rfl

-- the micro-operations write seven fields; these they leave alone
@[simp] theorem microStep_buf (o : MicroOp) (s : State) : (microStep o s).buf = s.buf := by cases o <;> rfl
@[simp] theorem microStep_dp (o : MicroOp) (s : State) : (microStep o s).dp = s.dp := by cases o <;> rfl
@[simp] theorem microStep_idx (o : MicroOp) (s : State) : (microStep o s).idx = s.idx := by cases o <;> rfl
@[simp] theorem microStep_tickPending (o : MicroOp) (s : State) : (microStep o s).tickPending = s.tickPending := by cases o <;> rfl
@[simp] theorem microStep_oeDig (o : MicroOp) (s : State) : (microStep o s).oeDig = s.oeDig := by cases o <;> rfl
@[simp] theorem microStep_oeSeg (o : MicroOp) (s : State) : (microStep o s).oeSeg = s.oeSeg := by cases o <;> rfl
@[simp] theorem microStep_pwmPeriod (o : MicroOp) (s : State) : (microStep o s).pwmPeriod = s.pwmPeriod := by cases o <;> rfl
@[simp] theorem microStep_cmpAm (o : MicroOp) (s : State) : (microStep o s).cmpAm = s.cmpAm := by cases o <;> rfl
@[simp] theorem microStep_cmpPm (o : MicroOp) (s : State) : (microStep o s).cmpPm = s.cmpPm := by cases o <;> rfl
@[simp] theorem microStep_cmpSep (o : MicroOp) (s : State) : (microStep o s).cmpSep = s.cmpSep := by cases o <;> rfl
@[simp] theorem microStep_enAm (o : MicroOp) (s : State) : (microStep o s).enAm = s.enAm := by cases o <;> rfl
@[simp] theorem microStep_enPm (o : MicroOp) (s : State) : (microStep o s).enPm = s.enPm := by cases o <;> rfl
@[simp] theorem microStep_enSep (o : MicroOp) (s : State) : (microStep o s).enSep = s.enSep := by cases o <;> rfl
@[simp] theorem microStep_resp (o : MicroOp) (s : State) : (microStep o s).resp = s.resp := by cases o <;> rfl
@[simp] theorem microStep_fault (o : MicroOp) (s : State) : (microStep o s).fault = s.fault := by cases o <;> rfl
@[simp] theorem microStep_cfg (o : MicroOp) (s : State) : (microStep o s).cfg = s.cfg := by cases o <;> rfl
@[simp] theorem microStep_schedule (o : MicroOp) (s : State) : (microStep o s).schedule = s.schedule := by cases o <;> rfl
@[simp] theorem microStep_drawCount (o : MicroOp) (s : State) : (microStep o s).drawCount = s.drawCount := by cases o <;> rfl

end Sys2Proof.Machine
end

