-- ==== Sys2Proof/Laws/Ops.lean ====
section
/-! SUPPORT. What each shared operation can do, said once. -/

namespace Sys2Proof.Machine

/-- A command step answers a next state exactly when there is no fault, and then the effect is it. -/
theorem commandStep_next_iff (s t : State) (effect : State → State) :
    commandStep s effect = .next t ↔ s.fault = none ∧ effect s = t := by
  unfold commandStep
  cases h : s.fault <;> simp

/-- With no fault recorded, a command step is its effect. -/
theorem commandStep_running (s : State) (effect : State → State) (h : s.fault = none) :
    commandStep s effect = .next (effect s) := by
  simp [commandStep, h]

/-- In a faulted state a command step does not exist. -/
theorem commandStep_frozen (s : State) (effect : State → State) (r : FaultRecord) (h : s.fault = some r) :
    commandStep s effect = .fault (.frozen r) := by
  simp [commandStep, h]

theorem withIndex_below (op : Mnemonic) (k : Fin 16) (write : State → State) (s : State) (h : k.val < s.cfg.ndigits) :
    withIndex op k write s = write s := by
  simp [withIndex, indexInRange, h]

theorem withIndex_beyond (op : Mnemonic) (k : Fin 16) (write : State → State) (s : State)
    (h : s.cfg.ndigits ≤ k.val) : withIndex op k write s = raiseFault (.indexOutOfRange op k) s := by
  simp [withIndex, indexInRange, Nat.not_lt.mpr h]

/-- The slot written reads as written. -/
theorem bufRead_bufWrite_same (s : State) (k : Nat) (w : Word) (h : k < s.buf.length) :
    bufRead (bufWrite s k w) k = some w := by
  simp [bufRead, h]

/-- Every other slot reads as before. -/
theorem bufRead_bufWrite_other (s : State) (k j : Nat) (w : Word) (h : j ≠ k) :
    bufRead (bufWrite s k w) j = bufRead s j := by
  simp [bufRead, List.getElem?_set_ne h.symm]

/-- A slot exists exactly below the buffer's length. -/
theorem bufRead_isSome_iff (s : State) (k : Nat) : (bufRead s k).isSome ↔ k < s.buf.length := by
  simp [bufRead]

/-- A decimal-point bit after a write of one. -/
theorem dpRead_dpWrite (s : State) (k j : Nat) (v : Bool) (hk : k < 16) :
    dpRead (dpWrite s k v) j = if j = k then v else dpRead s j :=
  writeBit_getLsbD s.dp k j v hk

/-- No bit at or above `n` is set in a value below `2 ^ n`, and the other way round. -/
theorem toNat_lt_two_pow_iff (w n : Nat) (v : BitVec w) :
    v.toNat < 2 ^ n ↔ ∀ j, n ≤ j → v.getLsbD j = false := by
  constructor
  · intro h j hj
    exact Nat.testBit_lt_two_pow (Nat.lt_of_lt_of_le h (Nat.pow_le_pow_right (by decide) hj))
  · intro h
    exact Nat.lt_pow_two_of_testBit _ h

/-- A slot write keeps the display buffer's form. -/
theorem Memory.wf_bufWrite (c : Config) (s : State) (k : Nat) (w : Word) (h : Memory.wf c s.buf s.dp) :
    Memory.wf c (bufWrite s k w).buf (bufWrite s k w).dp :=
  ⟨by simpa using h.1, h.2⟩

/-- Writing a decimal-point bit below NDIGITS keeps the display buffer's form. -/
theorem Memory.wf_dpWrite (c : Config) (s : State) (k : Nat) (v : Bool) (hk : k < c.ndigits)
    (h : Memory.wf c s.buf s.dp) : Memory.wf c (dpWrite s k v).buf (dpWrite s k v).dp := by
  refine ⟨h.1, (toNat_lt_two_pow_iff _ _ _).mpr fun j hj => ?_⟩
  rw [dpWrite_dp, writeBit_getLsbD _ _ _ _ (Nat.lt_of_lt_of_le hk c.wf.1.2), if_neg (by omega)]
  exact (toNat_lt_two_pow_iff _ _ _).mp h.2 j hj

/-- The state after Reset has the display buffer's form. -/
theorem Memory.wf_afterReset (c : Config) (d : ResetDraw) (sch : List Turn) (n : Nat) :
    Memory.wf c (State.afterReset c d sch n).buf (State.afterReset c d sch n).dp := by
  simp [Memory.wf]

end Sys2Proof.Machine
end

