-- ==== Sys2Proof/Laws/Chains.lean ====
section
/-! SUPPORT. The shift chains: each micro-operation's effect, runs of micro-operations, and one pulse bit by bit
(41_shift_register_driver.md R121 to R127). -/

namespace Sys2Proof.Machine

@[simp] theorem microStep_setData (b : Bool) (s : State) : microStep (.setData b) s = { s with dataLine := b } := rfl
@[simp] theorem microStep_pulseSegShift (s : State) :
    microStep .pulseSegShift s = { s with segSr := segShifted s.segSr s.dataLine } := rfl
@[simp] theorem microStep_pulseSegStore (s : State) : microStep .pulseSegStore s = { s with segLatch := s.segSr } := rfl
@[simp] theorem microStep_pulseDigShift (s : State) :
    microStep .pulseDigShift s = { s with digSr := digShifted s.cfg.digitDepth s.digSr s.dataLine } := rfl
@[simp] theorem microStep_pulseDigStore (s : State) : microStep .pulseDigStore s = { s with digLatch := s.digSr } := rfl
@[simp] theorem microStep_setSink (b : Bool) (s : State) : microStep (.setSink b) s = { s with sinkEn := b } := rfl
@[simp] theorem microStep_setDP (b : Bool) (s : State) : microStep (.setDP b) s = { s with dpLineN := b } := rfl

@[simp] theorem runMicro_nil (s : State) : runMicro [] s = s := rfl

@[simp] theorem runMicro_cons (o : MicroOp) (os : List MicroOp) (s : State) :
    runMicro (o :: os) s = runMicro os (microStep o s) := rfl

theorem runMicro_append (a b : List MicroOp) (s : State) : runMicro (a ++ b) s = runMicro b (runMicro a s) := by
  induction a generalizing s with
  | nil => rfl
  | cons o a ih => exact ih (microStep o s)

/-- A run of micro-operations passes through every boundary of its first part and of its second. -/
theorem mem_microTrace_append (a b : List MicroOp) (s t : State) :
    t ∈ microTrace (a ++ b) s ↔ t ∈ microTrace a s ∨ t ∈ microTrace b (runMicro a s) := by
  induction a generalizing s with
  | nil => cases b <;> simp [microTrace]
  | cons o a ih => simp [microTrace, ih (microStep o s), or_assoc]

/-- What every boundary of a run satisfies: true at the start and kept by each of its micro-operations. -/
theorem microTrace_forall (P : State → Prop) (os : List MicroOp) (s : State) (h0 : P s)
    (hstep : ∀ o ∈ os, ∀ u, P u → P (microStep o u)) : ∀ t ∈ microTrace os s, P t := by
  induction os generalizing s with
  | nil => simpa [microTrace] using h0
  | cons o os ih =>
    intro t ht
    rcases List.mem_cons.mp ht with rfl | ht
    · exact h0
    · exact ih (microStep o s) (hstep o (by simp) s h0) (fun o' ho' => hstep o' (by simp [ho'])) t ht

/-- No micro-operation writes the configuration. -/
@[simp] theorem runMicro_cfg (os : List MicroOp) (s : State) : (runMicro os s).cfg = s.cfg := by
  induction os generalizing s with
  | nil => rfl
  | cons o os ih => rw [runMicro_cons, ih, microStep_cfg]

/-- One segment pulse bit by bit: stage 0 takes the data line, stage `j + 1` takes stage `j`. -/
theorem segShifted_getLsbD (v : Word) (b : Bool) (j : Nat) (hj : j < 16) :
    (segShifted v b).getLsbD j = match j with
      | 0 => b
      | i + 1 => v.getLsbD i := by
  rw [segShifted, BitVec.getLsbD_or, BitVec.getLsbD_shiftLeft, zextBit_getLsbD]
  cases j <;> simp [hj]

/-- One digit pulse bit by bit: as on the segment chain, and nothing at or above the depth. -/
theorem digShifted_getLsbD (d : Nat) (v : ChainBits) (b : Bool) (j : Nat) (hd : d ≤ 32) :
    (digShifted d v b).getLsbD j = (decide (j < d) && match j with
      | 0 => b
      | i + 1 => v.getLsbD i) := by
  rw [digShifted, BitVec.getLsbD_and, BitVec.getLsbD_or, BitVec.getLsbD_shiftLeft, zextBit_getLsbD, lowMask_getLsbD]
  by_cases h : j < d
  · have h32 : j < 32 := Nat.lt_of_lt_of_le h hd
    cases j <;> simp [h, h32]
  · simp [h]

end Sys2Proof.Machine
end

