-- ==== Sys2Proof/Laws/Decode.lean ====
section
/-! SUPPORT. The decoder by its rows: no two rows overlap (30_encoding.md R75), a matching row is the answer, and a
word that no row matches is illegal. -/

namespace Sys2Proof

/-- Every row fixes the four opcode bits. -/
theorem Mnemonic.row_mask_opcode (o : Mnemonic) : o.row.mask &&& 0xF0000000#32 = 0xF0000000#32 := by
  cases o <;> rfl

/-- No two rows match one word: their opcodes differ (30_encoding.md R75). -/
theorem Mnemonic.row_unique (w : CommandWord) (a b : Mnemonic) (ha : a.row.matchesWord w = true)
    (hb : b.row.matchesWord w = true) : a = b := by
  simp only [Row.matchesWord, beq_iff_eq] at ha hb
  have opcode : a.row.pattern &&& 0xF0000000#32 = b.row.pattern &&& 0xF0000000#32 := by
    rw [← ha, ← hb, BitVec.and_assoc, BitVec.and_assoc, a.row_mask_opcode, b.row_mask_opcode]
  revert opcode
  cases a <;> cases b <;> decide

theorem Mnemonic.mem_all (o : Mnemonic) : o ∈ Mnemonic.all := by cases o <;> decide

/-- A word that matches a row decodes to that row's command. -/
theorem decode_of_matches (w : CommandWord) (o : Mnemonic) (h : o.row.matchesWord w = true) :
    decode w = .command (o.instrOf w) := by
  unfold decode
  cases hf : Mnemonic.all.find? fun o => o.row.matchesWord w with
  | none => exact absurd h (List.find?_eq_none.mp hf o o.mem_all)
  | some o' => rw [Mnemonic.row_unique w o o' h (List.find?_some (p := fun o : Mnemonic => o.row.matchesWord w) hf)]

/-- A word that no row matches is illegal. -/
theorem decode_of_no_match (w : CommandWord) (h : ∀ o : Mnemonic, o.row.matchesWord w = false) :
    decode w = .illegal w := by
  unfold decode
  rw [List.find?_eq_none.mpr fun o _ => by simp [h o]]

/-- A word decodes to a command only by a row it matches. -/
theorem decode_eq_command (w : CommandWord) (i : Instr) (h : decode w = .command i) :
    ∃ o : Mnemonic, o.row.matchesWord w = true ∧ i = o.instrOf w := by
  by_cases hm : ∃ o : Mnemonic, o.row.matchesWord w = true
  · obtain ⟨o, ho⟩ := hm
    rw [decode_of_matches w o ho] at h
    exact ⟨o, ho, (Decoded.command.inj h).symm⟩
  · rw [decode_of_no_match w fun o => Bool.not_eq_true _ ▸ fun ho => hm ⟨o, ho⟩] at h
    cases h

end Sys2Proof
end

