-- ==== Sys2Proof/Laws/PerInstr.lean ====
section
/-! SUPPORT. The per-instruction family EncodesInRow: the word of a command has its row's fixed bits
(30_encoding.md R74), so the encoder never sets a reserved bit or another opcode. -/

namespace Sys2Proof.Laws.EncodesInRow

/-- The encoded word matches the row of the command's mnemonic. -/
def Statement (i : Instr) : Prop := i.mnemonic.row.matchesWord (encode i) = true

theorem or_setWidth_and (m : Word) (p mask : CommandWord) (h : mask &&& 0xFFFF#32 = 0) :
    (p ||| m.setWidth 32) &&& mask = p &&& mask := by
  ext j hj
  have h0 := congrArg (fun v => v.getLsbD j) h
  by_cases h16 : j < 16
  · have h1 : (0xFFFF#32).getLsbD j = true := by
      have : ∀ j : Fin 16, (0xFFFF#32).getLsbD j.val = true := by decide
      exact this ⟨j, h16⟩
    have h2 : mask.getLsbD j = false := by simpa [BitVec.getLsbD_and, h1] using h0
    simp [← BitVec.getLsbD_eq_getElem, BitVec.getLsbD_and, BitVec.getLsbD_or, h2]
  · have : (m.setWidth 32).getLsbD j = false := by
      rw [BitVec.getLsbD_setWidth, BitVec.getLsbD_of_ge m j (Nat.le_of_not_lt h16), Bool.and_false]
    simp [← BitVec.getLsbD_eq_getElem, BitVec.getLsbD_and, BitVec.getLsbD_or, this]

theorem map (m : Word) : Statement (.map m) := by
  rw [Statement, Row.matchesWord, beq_iff_eq, encode]
  exact (or_setWidth_and m 0x10000000#32 0xFFFF0000#32 (by decide)).trans rfl

theorem wrseg (k : Fin 16) (m : Word) : Statement (.wrseg k m) := by
  rw [Statement, Row.matchesWord, beq_iff_eq, encode]
  have row : ∀ k : Fin 16, (0x20000000#32 ||| (BitVec.ofNat 32 k.val <<< 16)) &&& 0xFFF00000#32 = 0x20000000#32 := by
    decide
  exact (or_setWidth_and m _ 0xFFF00000#32 (by decide)).trans (row k)

theorem wrdp (k : Fin 16) (v : Bool) : Statement (.wrdp k v) := by
  have all : ∀ k : Fin 16, ∀ v : Bool, Mnemonic.WRDP.row.matchesWord (encode (.wrdp k v)) = true := by decide
  exact all k v

theorem setbrt (l : BitVec 8) : Statement (.setbrt l) := by
  have widen : l.setWidth 32 = (l.setWidth 16).setWidth 32 := by
    ext j hj
    rw [BitVec.getElem_setWidth, BitVec.getElem_setWidth, BitVec.getLsbD_setWidth]
    by_cases h16 : j < 16
    · simp [h16]
    · simp [BitVec.getLsbD_of_ge l j (by omega)]
  have low : ((l.setWidth 16).setWidth 32) &&& 0xFFFFFF00#32 = 0#32 := by
    ext j hj
    have mask : ∀ j : Fin 32, (0xFFFFFF00#32).getLsbD j.val = decide (8 ≤ j.val) := by decide
    have hm := mask ⟨j, hj⟩
    rw [← widen, ← BitVec.getLsbD_eq_getElem, BitVec.getLsbD_and, hm, BitVec.getLsbD_setWidth]
    by_cases h8 : j < 8
    · simp [Nat.not_le_of_lt h8]
    · simp [BitVec.getLsbD_of_ge l j (Nat.le_of_not_lt h8)]
  rw [Statement, Row.matchesWord, beq_iff_eq, encode, widen]
  show (0x40000000#32 ||| (l.setWidth 16).setWidth 32) &&& 0xFFFFFF00#32 = 0x40000000#32
  rw [BitVec.and_comm, BitVec.and_or_distrib_left, BitVec.and_comm _ ((l.setWidth 16).setWidth 32), low]
  decide

theorem setflags (am pm : Bool) : Statement (.setflags am pm) := by cases am <;> cases pm <;> exact rfl

theorem setsep (v : Bool) : Statement (.setsep v) := by cases v <;> exact rfl

theorem enout : Statement .enout := rfl

end Sys2Proof.Laws.EncodesInRow
end

