-- ==== Sys2Proof/Laws/Step.lean ====
section
/-! SUPPORT. What a command and a step can do: the inversions that later proofs cite instead of unfolding. -/

namespace Sys2Proof.Machine

/-- If a command answers a next state, then no fault was recorded and one of these is that state. -/
theorem exec_next_cases (i : Instr) (s t : State) (h : exec i s = .next t) :
    s.fault = none ∧
      match i with
      | .map m => t = respond (toHardwareOrder s.cfg m) s
      | .wrseg k m => t = withIndex .WRSEG k (fun s => respondNone (bufWrite s k.val (toHardwareOrder s.cfg m))) s
      | .wrdp k v => t = withIndex .WRDP k (fun s => respondNone (dpWrite s k.val v)) s
      | .setbrt l => t = respondNone (programChannels (brightnessCompare s.cfg l) s)
      | .setflags am pm => t = respondNone { s with enAm := am, enPm := pm }
      | .setsep v => t = respondNone { s with enSep := v }
      | .enout => t = respondNone { s with oeDig := true, oeSeg := true } := by
  cases i <;>
    simp only [exec, execMap, execWrseg, execWrdp, execSetbrt, execSetflags, execSetsep, execEnout] at h <;>
    exact ((commandStep_next_iff _ _ _).mp h).imp_right Eq.symm

/-- SCAN answers a next state exactly from a snapshot. -/
theorem scanStep_next_iff (s t : State) :
    scanStep s = .next t ↔ ∃ sn, takeSnapshot s = some sn ∧ advanceIndex sn.k (driven sn s) = t := by
  unfold scanStep
  cases h : takeSnapshot s <;> simp

/-- A snapshot is the digit `idx` with its word and its decimal-point bit. -/
theorem takeSnapshot_eq_some_iff (s : State) (sn : Snapshot) :
    takeSnapshot s = some sn ↔ bufRead s s.idx = some sn.w ∧ sn.k = s.idx ∧ sn.d = dpRead s s.idx := by
  cases sn
  simp [takeSnapshot, Snapshot.mk.injEq, eq_comm, and_left_comm]

/-- A disabled turn passes; an enabled one is its agent's step. -/
theorem turnStep_disabled (t : Turn) (s : State) (h : t.enabled s = false) : turnStep t s = .next s := by
  simp [turnStep, h]

theorem turnStep_enabled (t : Turn) (s : State) (h : t.enabled s = true) : turnStep t s = agentStep t s := by
  simp [turnStep, h]

/-- What a step's next state can be, by the turn it takes: the turn passes, or a command or an illegal word of the
Host, a tick, a SCAN, or a Reset. -/
theorem turnStep_next_cases (u : Turn) (s t : State) (h : turnStep u s = .next t) :
    (u.enabled s = false ∧ t = s) ∨
      (∃ w i, u = .command w ∧ s.fault = none ∧ decode w = .command i ∧ exec i s = .next t) ∨
      (∃ w, u = .command w ∧ s.fault = none ∧ decode w = .illegal w ∧ t = raiseFault (.illegalCommand w) s) ∨
      (u = .tick ∧ s.fault = none ∧ t = tickStep s) ∨
      (u = .scan ∧ s.scanEnabled = true ∧ scanStep s = .next t) ∨
      (u = .reset ∧ t = resetStep s) := by
  by_cases he : u.enabled s = true
  swap
  · rw [Bool.not_eq_true] at he
    rw [turnStep_disabled u s he] at h
    exact .inl ⟨he, (Host.Outcome.next.inj h).symm⟩
  rw [turnStep_enabled u s he] at h
  cases u with
  | command w =>
    have hf : s.fault = none := by simpa [Turn.enabled, State.frozen] using he
    simp only [agentStep, commandTurn] at h
    split at h
    · next i hd => exact .inr (.inl ⟨w, i, rfl, hf, hd, h⟩)
    · next w' hd =>
      have hw : w' = w := by
        unfold decode at hd
        split at hd
        · cases hd
        · exact (Decoded.illegal.inj hd).symm
      subst hw
      exact .inr (.inr (.inl ⟨w', rfl, hf, hd, ((commandStep_next_iff _ _ _).mp h).2.symm⟩))
  | tick =>
    have hf : s.fault = none := by simpa [Turn.enabled, State.frozen] using he
    exact .inr (.inr (.inr (.inl ⟨rfl, hf, (Host.Outcome.next.inj h).symm⟩)))
  | scan => exact .inr (.inr (.inr (.inr (.inl ⟨rfl, he, h⟩))))
  | reset => exact .inr (.inr (.inr (.inr (.inr ⟨rfl, (Host.Outcome.next.inj h).symm⟩))))

/-- A step takes the first turn of the schedule, and the Scanner's with none left. -/
theorem step_eq_turnStep (s : State) : step s = turnStep (s.schedule.headD .scan) { s with schedule := s.schedule.tail } := by
  cases h : s.schedule with
  | nil =>
    have hs : ({ s with schedule := [] } : State) = s := by cases s; cases h; rfl
    simp [step, h, idleStep, hs]
  | cons u rest => simp [step, h]

end Sys2Proof.Machine
end

