-- ==== Sys2Proof/Machine/Pins.lean ====
section
/-! DEFINITION. The pin-level conventions of 41_shift_register_driver.md R130: what each micro-operation drives on
the lines whose polarity the spec gives. The machine itself keeps a pulse as one event; no rule reads these. -/

namespace Sys2Proof.Machine

/-- The lines with a stated drive (41_shift_register_driver.md R130, R127). -/
inductive Pin
  | segShiftClock | segStoreClock | digShiftClock | digStoreClock | serialData | decimalPoint
  deriving DecidableEq, Repr

/-- What the block does to a line: drive it low or high, or leave it to the pull-up. -/
inductive Drive
  | low | high | released
  deriving DecidableEq, Repr

/-- A driven level. -/
def driveLevel (b : Bool) : Drive := if b then .high else .low

/-- The idle drive of a clock line (41_shift_register_driver.md R130; the digit store clock's is decision D19): the
segment shift clock is open-drain and idles released to its pull-up. The data and decimal-point lines have none. -/
def Pin.idle : Pin → Option Drive
  | .segShiftClock => some .released
  | .segStoreClock => some .high
  | .digShiftClock => some .low
  | .digStoreClock => some .low
  | .serialData => none
  | .decimalPoint => none

/-- The drives of a micro-operation, in order (41_shift_register_driver.md R130). The line that realises the digit
sink is not in the source (91_not_in_source.md N8), so SetSink drives none here. -/
def MicroOp.drives : MicroOp → List (Pin × Drive)
  | .setData b => [(.serialData, driveLevel b)]
  | .pulseSegShift => [(.segShiftClock, .low), (.segShiftClock, .released)]
  | .pulseSegStore => [(.segStoreClock, .low), (.segStoreClock, .high)]
  | .pulseDigShift => [(.digShiftClock, .high), (.digShiftClock, .low)]
  | .pulseDigStore => [(.digStoreClock, .high), (.digStoreClock, .low)]
  | .setSink _ => []
  | .setDP b => [(.decimalPoint, driveLevel b)]

end Sys2Proof.Machine
end

