-- ==== Sys2Proof/Tests/Slice0.lean ====
section
/-! SUPPORT. Small tests, one step each. Expected values are those of 95_test_vectors.md (named V-... there) under its
illustrative configuration EX, of 30_encoding.md R84, and words written out from 30_encoding.md R73. Last come the
witnesses: for each obligation with hypotheses, a state and operands that meet them. -/

namespace Sys2Proof.Tests

open Sys2Proof.Machine

/-- The next state, if the outcome has one. -/
def nextOf : Host.Outcome State Fault Refusal → Option State
  | .next s => some s
  | .fault _ => none
  | .refused _ => none

/-- A draw for tests: the starts of V-SR-1, V-SR-4 and V-SR-7. -/
def draw0 : ResetDraw := ⟨0xABCD, 0x5A5A, 0xFFFF, 0xFFFF, true, true⟩

/-- Configuration EX right after Reset, with the given turns. -/
def start (turns : List Turn) : State := State.afterReset Config.illustrative draw0 turns 0

/-- EX after Reset with outputs enabled, digit `k` next, the given slot word and decimal-point mask, a tick pending. -/
def scanning (k : Nat) (w dp : Word) : State :=
  { start [] with buf := (start []).buf.set k w, dp := dp, idx := k, tickPending := true, oeDig := true, oeSeg := true }

/-- A faulted state (V-FLT-1). -/
def faulted (turns : List Turn) : State := { start turns with fault := some (.illegalCommand 0) }

/-- One digit in a chain of eight positions (V-SCAN-5). -/
def oneDigit : Config where
  toParams := { Config.illustrative.toParams with ndigits := 1, digitDepth := 8 }
  wf := by decide

/-- Thirteen digits in a chain of thirteen positions (V-SCAN-6). -/
def noSpare : Config where
  toParams := { Config.illustrative.toParams with ndigits := 13, digitDepth := 13 }
  wf := by decide

-- ## Well-formedness: each check refuses a term that fails it

def badDigits : Params := { Config.illustrative.toParams with ndigits := 0 }
def badDepth : Params := { Config.illustrative.toParams with digitDepth := 12 }
def badPerm : Params := { Config.illustrative.toParams with perm := Vector.replicate 16 3 }
def badTable : Params := { Config.illustrative.toParams with brtTable := #v[0, 18, 57, 131, 131, 428, 674, 1000] }

theorem test_ndigits_range_refuses : boot badDigits [] = .refused (.illFormedConfiguration .ndigitsRange) := by rfl
theorem test_depth_range_refuses : boot badDepth [] = .refused (.illFormedConfiguration .depthRange) := by rfl
theorem test_perm_bijective_refuses : ¬ badPerm.wf ∧ badPerm.firstFailing = .permBijective := by decide
theorem test_table_strict_refuses : ¬ badTable.wf ∧ badTable.firstFailing = .tableStrict := by decide
theorem test_mask_too_wide_refused : (AsmLine.wrseg 15 0x10000).error = some .maskTooWide := by decide
theorem test_index_too_wide_refused : (AsmLine.wrdp 16 1).error = some .indexTooWide := by decide
theorem test_bit_too_wide_refused : (AsmLine.setsep 2).error = some .bitTooWide := by decide
theorem test_level_too_wide_refused : (AsmLine.setbrt 256).error = some .levelTooWide := by decide
theorem test_ranges_ends_accepted :
    (AsmLine.wrseg 15 0xFFFF).wf ∧ (AsmLine.wrdp 15 1).wf ∧ (AsmLine.setbrt 255).wf := by decide

-- ## Decoding: words written out bit by bit from 30_encoding.md R73

theorem test_decode_map : decode 0b0001_00000000_0000_0000000000111111#32 = .command (.map 0x3F) := by decide
theorem test_decode_wrseg : decode 0b0010_00000000_1100_1000000000000001#32 = .command (.wrseg 12 0x8001) := by decide
theorem test_decode_wrdp : decode 0b0011_00000000_0101_000000000000000_1#32 = .command (.wrdp 5 true) := by decide
theorem test_decode_setbrt : decode 0b0100_00000000_0000_00000000_10000001#32 = .command (.setbrt 129) := by decide
theorem test_decode_setflags_am :
    decode 0b0101_00000000_0000_00000000_000000_0_1#32 = .command (.setflags true false) := by decide
theorem test_decode_setflags_pm :
    decode 0b0101_00000000_0000_00000000_000000_1_0#32 = .command (.setflags false true) := by decide
theorem test_decode_setsep : decode 0b0110_00000000_0000_00000000_0000000_1#32 = .command (.setsep true) := by decide
theorem test_decode_enout : decode 0b0111_00000000_0000_00000000_00000000#32 = .command .enout := by decide

-- V-DEC-2, 5, 7, 10, 12, 14, 16, 17, 18
theorem test_reserved_bits_illegal :
    ([0x10010000, 0x20F00000, 0x30058000, 0x40000100, 0x50000004, 0x60000002, 0x70000001, 0, 0xFFFFFFFF] :
      List CommandWord).all (fun w => decode w == .illegal w) = true := by decide

theorem test_table_word : decodeTableWord 32 0x200D0001 = some (.wrseg 13 1) := by decide
theorem test_table_word_illegal : decodeTableWord 32 0 = none := by decide

-- ## The remapper: V-MAP-5, V-MAP-9, V-MAP-14; {A..F} of 40_segment_mapper.md R100

theorem test_segments_of_O : maskOf [.A, .B, .C, .D, .E, .F] = 0x003F := by decide
theorem test_remap_003F : toHardwareOrder Config.illustrative 0x003F = 0xCE73 := by decide
theorem test_remap_1234 : toHardwareOrder Config.illustrative 0x1234 = 0x4F7E := by decide
theorem test_unmap_1234 : fromHardwareOrder Config.illustrative 0x1234 = 0x9BD7 := by decide
theorem test_popcount : popcount 0x003F = 6 := by decide

-- ## One command each

-- V-MAP-15
theorem test_map : (nextOf (exec (.map 0x003F) (start []))).map (·.resp) = some (some 0xCE73) := by decide
-- V-BUF-1
theorem test_wrseg : (nextOf (exec (.wrseg 0 0x003F) (start []))).map (fun t => (bufRead t 0, bufRead t 1, t.resp)) =
    some (some 0xCE73, some 0xFFFF, none) := by decide
-- V-BUF-4
theorem test_wrseg_out_of_range : (nextOf (exec (.wrseg 13 0x1234) (start []))).map (fun t => (t.fault, t.buf)) =
    some (some (.indexOutOfRange .WRSEG 13), List.replicate 13 0xFFFF) := by decide
-- V-BUF-5
theorem test_wrdp : (nextOf (exec (.wrdp 5 true) (start []))).map (·.dp) = some 0x0020 := by decide
-- V-BUF-7
theorem test_wrdp_clears : (nextOf (exec (.wrdp 0 false) { start [] with dp := 0x1FFF })).map (·.dp) = some 0x1FFE := by
  decide
-- V-BRT-2
theorem test_setbrt : (nextOf (exec (.setbrt 3) (start []))).map (fun t => (t.pwmPeriod, t.cmpAm, t.cmpPm, t.cmpSep)) =
    some (1000, 131, 131, 131) := by decide
-- V-BRT-3
theorem test_setbrt_clamps : (nextOf (exec (.setbrt 255) (start []))).map (·.cmpSep) = some 1000 := by decide
-- V-BRT-8
theorem test_setflags : (nextOf (exec (.setflags true false) { start [] with enPm := true, enSep := true })).map
    (fun t => (t.enAm, t.enPm, t.enSep)) = some (true, false, true) := by decide
-- V-BRT-10
theorem test_setsep : (nextOf (exec (.setsep true) { start [] with enAm := true, enPm := true })).map
    (fun t => (t.enAm, t.enPm, t.enSep)) = some (true, true, true) := by decide
-- V-OE-1
theorem test_enout : (nextOf (exec .enout (start []))).map (fun t => (t.oeDig, t.oeSeg, t.sinkEn)) =
    some (true, true, false) := by decide

-- ## The chains: V-SR-1 to V-SR-6

theorem test_shift_four_pulses : (runMicro ((shiftSegWord 0x1234).take 8) (start [])).segSr = 0xBCD1 := by decide
theorem test_shift_word : (runMicro (shiftSegWord 0x1234) (start [])).segSr = 0x1234 := by decide
theorem test_shift_digit : (runMicro (shiftDigitSelect 16 12) (start [])).digSr = 0x1000 := by decide
theorem test_shift_digit_zero : (runMicro (shiftDigitSelect 16 0) (start [])).dataLine = true := by decide
-- V-SR-5, the rejected 13-pulse reading leaves stale bits
theorem test_thirteen_pulses_leave_stale_bits : (runMicro (shiftDigitFrom 14 13) (start [])).digSr = 0xE000 := by decide
theorem test_pins_seg_clock : MicroOp.drives .pulseSegShift = [(.segShiftClock, .low), (.segShiftClock, .released)] := by
  decide

-- ## SCAN, tick and Reset

-- V-SCAN-1
theorem test_scan_digit_zero : (nextOf (step (scanning 0 0xCE73 0))).map
    (fun t => (t.segLatch, t.digLatch, t.dpLineN, t.dataLine, t.idx)) = some (0xCE73, 0x0001, true, true, 1) := by
  decide
-- V-SCAN-2
theorem test_scan_last_digit : (nextOf (step (scanning 12 0x1234 0x1000))).map
    (fun t => (t.segLatch, t.digLatch, t.dpLineN, t.dataLine, t.idx)) = some (0x1234, 0x1000, false, false, 0) := by
  decide
-- V-SCAN-3
theorem test_scan_not_enabled : nextOf (step (start [.scan])) = some (start []) := by decide
-- V-SCAN-5
theorem test_scan_one_digit : (nextOf (step { State.afterReset oneDigit draw0 [] 0 with tickPending := true })).map
    (fun t => (t.idx, t.digLatch)) = some (0, 0x01) := by decide
-- V-SCAN-6
theorem test_scan_no_spare : (nextOf (step
    { State.afterReset noSpare draw0 [] 0 with tickPending := true, idx := 12 })).map
    (fun t => (t.idx, t.digLatch)) = some (0, 0x1000) := by decide
-- V-SCAN-7: digit 3 before, no digit in the dark, digit 4 after
theorem test_scan_instants : ((scanInstants
      { scanning 4 0xFFF7 0 with sinkEn := true, digLatch := 0x0008, segLatch := 0xCE73 }).map fun t =>
        (List.range 13).filter (digitOn t)) =
    List.replicate 34 [3] ++ List.replicate 36 [] ++ List.replicate 2 [4] := by decide +kernel
-- P1: digit 1 shows segment A and its point
theorem test_shown_mask : (nextOf (step (scanning 1 0xFFF7 0x0002))).map (fun t => (shownMask t 1, dpLit t 1)) =
    some (0x0001, true) := by decide
theorem test_tick : (nextOf (step (start [.tick]))).map (·.tickPending) = some true := by decide
-- V-FLT-4: decoding comes first
theorem test_illegal_first : (nextOf (step (start [.command 0x2F000000]))).map (·.fault) =
    some (some (.illegalCommand 0x2F000000)) := by decide
-- V-FLT-2
theorem test_frozen_command : nextOf (step (faulted [.command 0x10000001])) = some (faulted []) := by decide
-- V-FLT-3
theorem test_reset_recovers : (nextOf (step (faulted [.reset]))).map (fun t => (t.fault, t.buf, t.sinkEn)) =
    some (none, List.replicate 13 0xFFFF, false) := by decide
-- P4
theorem test_populate : populate Config.illustrative (fun ch => if ch = 'A' then 0x0077 else 0x0E0F) 'x'
    ['A', 'B', 'x', 'C'] = [.wrseg 0 0x0077, .wrseg 1 0x0E0F] := by decide
theorem test_clrbuf_length : (clrbuf Config.illustrative).length = 26 := by decide
-- on the board's own configuration, whose open parameters no proof can see
theorem test_board_runs_a_command : (nextOf (step (State.reset.withFetchWord 32 0x200C0001))).isSome = true := by decide
theorem test_board_index_fault : (nextOf (step (State.reset.withFetchWord 32 0x200D0001))).map (·.fault) =
    some (some (.indexOutOfRange .WRSEG 13)) := by decide

-- ## Witnesses

theorem witness_running_state : (start []).fault = none ∧ (start []).Inv := by decide
theorem witness_DecodedWordIsTheOnlyEncoding : decode 0x300F0001#32 = .command (.wrdp 15 true) := by decide
theorem witness_DecodeFollowsTheOpcodeMap :
    (0x1000FFFF#32 &&& 0xFFFF0000#32 = 0x10000000#32) ∧ (0x200FFFFF#32 &&& 0xFFF00000#32 = 0x20000000#32) ∧
    (0x300F0001#32 &&& 0xFFF0FFFE#32 = 0x30000000#32) ∧ (0x400000FF#32 &&& 0xFFFFFF00#32 = 0x40000000#32) ∧
    (0x50000003#32 &&& 0xFFFFFFFC#32 = 0x50000000#32) ∧ (0x60000001#32 &&& 0xFFFFFFFE#32 = 0x60000000#32) ∧
    (0x10010000#32 &&& 0xFFFF0000#32 ≠ 0x10000000#32 ∧ 0x10010000#32 &&& 0xFFF00000#32 ≠ 0x20000000#32 ∧
      0x10010000#32 &&& 0xFFF0FFFE#32 ≠ 0x30000000#32 ∧ 0x10010000#32 &&& 0xFFFFFF00#32 ≠ 0x40000000#32 ∧
      0x10010000#32 &&& 0xFFFFFFFC#32 ≠ 0x50000000#32 ∧ 0x10010000#32 &&& 0xFFFFFFFE#32 ≠ 0x60000000#32 ∧
      0x10010000#32 ≠ 0x70000000#32) := by decide
theorem witness_UnassignedOpcodesRaiseIllegalCommand :
    (0x0FFFFFFF#32).toNat / 2 ^ 28 = 0 ∧ 8 ≤ (0x80000000#32).toNat / 2 ^ 28 ∧ (start []).fault = none := by decide
theorem witness_AssemblerAcceptsExactlyTheRanges : 0xFFFF ≤ 0xFFFF ∧ 0xFFFF < 0x10000 ∧ 15 ≤ 15 ∧ 15 < 16 ∧ 1 ≤ 1 ∧
    1 < 2 ∧ 255 ≤ 255 ∧ 255 < 256 := by decide
theorem witness_MapRespondsTheRemappedMask : (start []).fault = none := by decide
theorem witness_WrsegStoresOneSlot : (start []).fault = none ∧
    Memory.wf (start []).cfg (start []).buf (start []).dp ∧ (12 : Fin 16).val < (start []).cfg.ndigits := by decide
theorem witness_WrdpWritesOneBit : (start []).fault = none ∧ (12 : Fin 16).val < (start []).cfg.ndigits := by decide
theorem witness_IndexOutOfRangeIsPrecise : (start []).fault = none ∧ (start []).cfg.ndigits ≤ (13 : Fin 16).val := by
  decide
theorem witness_LevelSelectsATableEntry : 7 < (8#8).toNat ∧ (7#8).toNat ≤ 7 ∧ (6 : Fin 8) < 7 := by decide
theorem witness_SetbrtProgramsAllThreeChannels :
    (start []).fault = none ∧ (7 : Fin 8).val = min (255#8).toNat 7 ∧ (7 : Fin 8).val = min (7#8).toNat 7 := by decide
theorem witness_BrightnessIsStrictThenClamped : (6#8).toNat < (7#8).toNat ∧ (7#8).toNat ≤ 7 ∧ 7 ≤ (255#8).toNat := by
  decide
theorem witness_BrighterLevelRaisesComparesNotPeriod :
    (start []).fault = none ∧ (6#8).toNat < (7#8).toNat ∧ (7#8).toNat ≤ 7 := by decide
theorem witness_SetflagsWritesTheTwoEnables : (start []).fault = none := by decide
theorem witness_SetsepWritesTheSeparatorEnable :
    (start []).fault = none ∧ (0x60000001#32).toNat / 2 ^ 28 = 6 ∧ (0x60000002#32).toNat / 2 ^ 28 = 6 := by decide
theorem witness_BrightnessCommandsCommute : (12 : Fin 16).val < (start []).cfg.ndigits := by decide
theorem witness_BrightnessCommutesWithScan :
    (Instr.setbrt 3).mnemonic = .SETBRT ∧ (Instr.setflags true false).mnemonic = .SETFLAGS ∧
    (Instr.setsep true).mnemonic = .SETSEP ∧ (scanning 12 0x1234 0x1000).fault = none ∧
    (scanning 12 0x1234 0x1000).Inv := by decide
theorem witness_EnoutEnablesBothBanks : (start []).fault = none := by decide
theorem witness_CommandsFaultExactlyOutOfRange : (start []).fault = none ∧
    (Instr.wrseg 12 0).indexBelow (start []).cfg.ndigits ∧ ¬ (Instr.wrdp 13 true).indexBelow (start []).cfg.ndigits := by
  decide
theorem witness_IllegalWordIsRecorded : (start [.command 0x10010000#32]).fault = none ∧
    (start [.command 0x10010000#32]).schedule = .command 0x10010000#32 :: [] ∧
    ∀ i, decode 0x10010000#32 ≠ .command i :=
  ⟨rfl, rfl, fun i h => by
    have h0 : decode 0x10010000#32 = .illegal 0x10010000#32 := by decide
    rw [h0] at h
    cases h⟩
theorem witness_FaultedStateExecutesNoCommand : (faulted []).fault = some (.illegalCommand 0) := by decide
theorem witness_FaultedStateIsFrozen : (faulted [.scan]).fault ≠ none ∧ Turn.scan ≠ .reset ∧
    (faulted [.scan]).schedule = .scan :: [] ∧ (faulted []).schedule = [] := by decide
theorem witness_OnlyResetClearsAFault : (faulted [.reset]).fault ≠ none ∧
    step (faulted [.reset]) = .next (resetStep (faulted [])) ∧
    (resetStep (faulted [])).fault ≠ (faulted [.reset]).fault := ⟨by decide, rfl, by decide⟩
theorem witness_ResetSetsEveryStatedValue : (faulted [.reset, .tick]).schedule = .reset :: [.tick] := by decide
theorem witness_IllFormedConfigurationIsRefused : Config.illustrative.toParams.wf ∧ ¬ badDigits.wf ∧ ¬ badDepth.wf ∧
    ¬ badPerm.wf ∧ ¬ badTable.wf := by decide
theorem witness_StepKeepsTheInvariant : (scanning 12 0x1234 0x1000).Inv ∧
    (nextOf (step (scanning 12 0x1234 0x1000))).isSome = true := by decide
theorem witness_EveryStepFromTheInvariantCompletes : (scanning 12 0x1234 0x1000).Inv := by decide
theorem witness_StepKeepsTheConfiguration : (nextOf (step (start [.tick]))).isSome = true := by decide
theorem witness_StepRunsTheDecodedCommand :
    (start [.command 0x70000000#32]).fault = none ∧
    (start [.command 0x70000000#32]).schedule = .command 0x70000000#32 :: [] ∧
    decode 0x70000000#32 = .command .enout ∧ decodeTableWord 32 0x70000000 = some .enout := by decide
theorem witness_CommandsFollowTheAccessMatrix : (nextOf (exec (.wrseg 12 1) (start []))).isSome = true ∧
    (nextOf (exec (.map 1) (start []))).isSome = true := by decide
theorem witness_DigitPulseMovesEachStage : 14 + 1 < (start []).cfg.digitDepth ∧ (start []).cfg.digitDepth ≤ 16 := by
  decide
theorem witness_ChainsAreIndependent :
    (∀ o ∈ shiftSegWord 0x8001, o ≠ .pulseDigShift ∧ o ≠ .pulseDigStore) ∧
    (∀ o ∈ shiftDigitSelect 16 12, o ≠ .pulseSegShift ∧ o ≠ .pulseSegStore) := by decide
theorem witness_DigitShiftLoadsTheOneHot : 12 < (start []).cfg.ndigits ∧ 0 < (start []).cfg.ndigits := by decide
theorem witness_TicksCollapseIntoOneFlag : (start [.tick, .tick, .scan]).fault = none ∧
    (start [.tick, .tick, .scan]).schedule = List.replicate (1 + 1) .tick ++ [.scan] := by decide
theorem witness_NoTickNoScan : (start [.scan]).tickPending = false ∧ (start [.scan]).schedule = .scan :: [] := by decide
theorem witness_ScanEndState : ({ scanning 12 0x1234 0x1000 with schedule := [.scan] } : State).Inv ∧
    (scanning 12 0x1234 0x1000).tickPending = true ∧ (scanning 12 0x1234 0x1000).fault = none := by decide
theorem witness_DecimalPointFollowsTheMask : (scanning 12 0x1234 0x1000).Inv ∧
    dpRead (scanning 12 0x1234 0x1000) 12 = true := by decide
theorem witness_IdleOutputsHold : (start [.command 0x2001FFFF#32]).tickPending = false ∧
    (nextOf (step (start [.command 0x2001FFFF#32]))).isSome = true ∧
    (start [.command 0x2001FFFF#32]).schedule.head? ≠ some .reset ∧
    (start [.command 0x2001FFFF#32]).schedule.head? ≠ some (.command 0x70000000#32) := by decide
/-- Digit 3 is on and digit 4 is scanned next (V-SCAN-7). -/
def digitThreeOn : State := { scanning 4 0xFFF7 0 with sinkEn := true, digLatch := 0x0008, segLatch := 0xCE73 }
theorem witness_AtMostOneDigitOnAtEveryInstant : digitThreeOn.Inv ∧ digitThreeOn ∈ scanInstants digitThreeOn ∧
    digitOn digitThreeOn 3 = true := by decide
theorem witness_NoGhostFrame : Reachable (start []) none := Reachable.start _ _ _ _
theorem witness_EveryFrameSelectsEachDigitOnce : (scanning 12 0x1234 0x1000).Inv ∧
    (scanning 12 0x1234 0x1000).fault = none ∧ 12 < (scanning 12 0x1234 0x1000).cfg.ndigits := by decide
theorem witness_WrittenMaskIsShownWithinAFrame : (scanning 12 0x1234 0x1000).Inv ∧
    (scanning 12 0x1234 0x1000).fault = none ∧ (11 : Fin 16).val < (scanning 12 0x1234 0x1000).cfg.ndigits ∧
    (12 : Fin 16).val < (scanning 12 0x1234 0x1000).cfg.ndigits ∧ (scanning 12 0x1234 0x1000).oeDig = true := by decide
theorem witness_ScanIgnoresTheOutputEnables : (scanning 12 0x1234 0x1000).Inv ∧
    (scanning 12 0x1234 0x1000).fault = none := by decide
theorem witness_ClrbufRestoresTheResetBuffer :
    ({ scanning 12 0x1234 0x1000 with schedule := hostTurns (clrbuf Config.illustrative) } : State).Inv ∧
    (scanning 12 0x1234 0x1000).cfg = Config.illustrative := by decide
/-- A run that enables the outputs and services one tick: the last SCAN's digit is on. -/
theorem witness_ExactlyOneDigitOnBetweenUpdates :
    ∃ s sn, Reachable s (some sn) ∧ s.oeDig = true := by
  refine ⟨_, _, Reachable.more _ _ _ (Reachable.more _ _ _ (Reachable.more _ _ _
    (Reachable.start Config.illustrative draw0 [.command 0x70000000#32, .tick, .scan] 0) rfl) rfl) rfl, ?_⟩
  rfl

/-- One digit, shown: a SCAN ends where it began but for the tick. -/
def oneShown : State :=
  { State.afterReset oneDigit draw0 [] 0 with
    sinkEn := true, digLatch := 1, digSr := 1, segLatch := 0xFFFF, segSr := 0xFFFF, dataLine := true, dpLineN := true }
theorem oneShown_scanned : turnStep .scan (tickStep oneShown) = .next oneShown := by
  have h : nextOf (turnStep .scan (tickStep oneShown)) = some oneShown := by decide
  revert h
  cases turnStep .scan (tickStep oneShown) <;> simp [nextOf]
/-- Tick and SCAN in turn, for ever. -/
theorem witness_FairRunsSelectEveryDigitForever :
    FairRun (fun n => if n % 2 = 0 then .tick else .scan) (fun n => if n % 2 = 0 then oneShown else tickStep oneShown) ∧
    oneShown.Inv ∧ 0 < oneShown.cfg.ndigits := by
  refine ⟨⟨fun n => ?_, fun n => ?_, fun n => ?_, fun n => ⟨2 * n, by omega, by simp⟩, fun n => ?_⟩, by decide, by decide⟩
  · rcases Nat.mod_two_eq_zero_or_one n with h | h
    · have h1 : (n + 1) % 2 = 1 := by omega
      simp only [h, h1, if_true, one_ne_zero, if_false]
      rfl
    · have h1 : (n + 1) % 2 = 0 := by omega
      simp only [h, h1, if_true, one_ne_zero, if_false]
      exact oneShown_scanned
  · split <;> rfl
  · split <;> decide
  · refine ⟨2 * n + 1, by omega, .inl ?_⟩
    have h1 : (2 * n + 1) % 2 = 1 := by omega
    simp [h1]

end Sys2Proof.Tests
end

section
/-!
The segment remapper (40_segment_mapper.md section 2): its word read at the hardware positions PERM, and the fact
that these positions are all sixteen bits, so that a hardware word is determined by its bits there.
-/

namespace Sys2Proof.Machine

/-- PERM reaches every hardware bit: an injection of a finite type into itself is onto (00_scope.md R8). -/
theorem perm_surjective (c : Config) : Function.Surjective fun i : Fin 16 => c.perm[i] := by
  obtain ⟨-, -, hperm, -⟩ := c.wf
  exact Finite.surjective_of_injective fun i j => hperm i j

/-- Two words with the same bits at the positions of PERM are equal. -/
theorem word_ext_perm (c : Config) {a b : Word}
    (h : ∀ i : Fin 16, a.getLsbD c.perm[i].val = b.getLsbD c.perm[i].val) : a = b := by
  refine BitVec.eq_of_getLsbD_eq fun j hj => ?_
  obtain ⟨i, hi : c.perm[i] = ⟨j, hj⟩⟩ := perm_surjective c ⟨j, hj⟩
  simpa only [hi] using h i

theorem permute_getLsbD_perm (c : Config) (x : Word) (i : Fin 16) :
    (permute c x).getLsbD c.perm[i].val = x.getLsbD i.val := by
  obtain ⟨-, -, hperm, -⟩ := c.wf
  exact orBits_at (fun i => x.getLsbD i.val) (fun i => c.perm[i]) hperm i

/-- The equivalent form of 40_segment_mapper.md R101. -/
theorem toHardwareOrder_getLsbD_perm (c : Config) (x : Word) (i : Fin 16) :
    (toHardwareOrder c x).getLsbD c.perm[i].val = !x.getLsbD i.val := by
  rw [toHardwareOrder, BitVec.getLsbD_not, permute_getLsbD_perm, decide_eq_true c.perm[i].isLt, Bool.true_and]

theorem toHardwareOrder_zero (c : Config) : toHardwareOrder c 0#16 = BitVec.allOnes 16 :=
  word_ext_perm c fun i => by
    rw [toHardwareOrder_getLsbD_perm, BitVec.getLsbD_zero, BitVec.getLsbD_allOnes, decide_eq_true c.perm[i].isLt,
      Bool.not_false]

theorem toHardwareOrder_allOnes (c : Config) : toHardwareOrder c (BitVec.allOnes 16) = 0#16 :=
  word_ext_perm c fun i => by
    rw [toHardwareOrder_getLsbD_perm, BitVec.getLsbD_allOnes, BitVec.getLsbD_zero, decide_eq_true i.isLt, Bool.not_true]

/-- Settles O7, by reading each bit at its PERM position. -/
theorem remapperPlacesEachInvertedBit : Obligations.RemapperPlacesEachInvertedBit :=
  fun c x => ⟨toHardwareOrder_getLsbD_perm c x, toHardwareOrder_zero c, toHardwareOrder_allOnes c⟩

end Sys2Proof.Machine
end

section
/-!
The shift-register driver (41_shift_register_driver.md): what the outputs do not read, one segment pulse, and the
independence of the two chains, each as a replacement of state elements that micro-operations do not notice.
-/

namespace Sys2Proof.Machine

/-- R133: the output functions read neither chain's shift stages nor the data line. -/
theorem sameOutputs_withStages (s : State) (v : Word) (a : ChainBits) (b : Bool) :
    SameOutputs s { s with segSr := v, digSr := a, dataLine := b } :=
  ⟨fun _ => rfl, fun _ => rfl, fun _ _ => rfl, fun _ => rfl, fun _ => rfl⟩

/-- R122's formula: the mask to 16 bits is the width of the stages. -/
theorem segShifted_eq_masked (v : Word) (b : Bool) :
    segShifted v b = ((v <<< 1) ||| (BitVec.ofBool b).setWidth 16) &&& 0xFFFF#16 :=
  BitVec.and_allOnes.symm

/-- Settles O39, by reading the shifted stages bit by bit. -/
theorem segmentPulseMovesEachStage : Obligations.SegmentPulseMovesEachStage := by
  intro s
  refine ⟨segShifted s.segSr s.dataLine, microStep_pulseSegShift s, segShifted_eq_masked _ _, ?_, fun j hj => ?_,
    sameOutputs_withStages s _ s.digSr s.dataLine⟩
  · exact segShifted_getLsbD s.segSr s.dataLine 0 (by decide)
  · exact segShifted_getLsbD s.segSr s.dataLine (j + 1) (by omega)

/-- A change of the state that commutes with each micro-operation of a run commutes with the run. -/
theorem runMicro_comm (f : State → State) (os : List MicroOp)
    (h : ∀ o ∈ os, ∀ s, microStep o (f s) = f (microStep o s)) (s : State) :
    runMicro os (f s) = f (runMicro os s) := by
  induction os generalizing s with
  | nil => rfl
  | cons o os ih =>
    obtain ⟨ho, hos⟩ := List.forall_mem_cons.mp h
    rw [runMicro_cons, runMicro_cons, ho, ih hos]

/-- The state with the segment chain's stages and latch replaced. -/
def withSegChain (v w : Word) (s : State) : State := { s with segSr := v, segLatch := w }

/-- The state with the digit chain's stages and latch replaced. -/
def withDigChain (a b : ChainBits) (s : State) : State := { s with digSr := a, digLatch := b }

/-- Only the segment chain's own pulses read or write it. -/
theorem microStep_withSegChain (o : MicroOp) (h : o ≠ .pulseSegShift ∧ o ≠ .pulseSegStore) (v w : Word) (s : State) :
    microStep o (withSegChain v w s) = withSegChain v w (microStep o s) := by
  obtain ⟨hshift, hstore⟩ := h
  cases o with
  | pulseSegShift => exact absurd rfl hshift
  | pulseSegStore => exact absurd rfl hstore
  | setData | pulseDigShift | pulseDigStore | setSink | setDP => rfl

/-- Only the digit chain's own pulses read or write it. -/
theorem microStep_withDigChain (o : MicroOp) (h : o ≠ .pulseDigShift ∧ o ≠ .pulseDigStore) (a b : ChainBits)
    (s : State) : microStep o (withDigChain a b s) = withDigChain a b (microStep o s) := by
  obtain ⟨hshift, hstore⟩ := h
  cases o with
  | pulseDigShift => exact absurd rfl hshift
  | pulseDigStore => exact absurd rfl hstore
  | setData | pulseSegShift | pulseSegStore | setSink | setDP => rfl

theorem runMicro_withSegChain (os : List MicroOp) (h : ∀ o ∈ os, o ≠ .pulseSegShift ∧ o ≠ .pulseSegStore)
    (v w : Word) (s : State) : runMicro os (withSegChain v w s) = withSegChain v w (runMicro os s) :=
  runMicro_comm (withSegChain v w) os (fun o ho => microStep_withSegChain o (h o ho) v w) s

theorem runMicro_withDigChain (os : List MicroOp) (h : ∀ o ∈ os, o ≠ .pulseDigShift ∧ o ≠ .pulseDigStore)
    (a b : ChainBits) (s : State) : runMicro os (withDigChain a b s) = withDigChain a b (runMicro os s) :=
  runMicro_comm (withDigChain a b) os (fun o ho => microStep_withDigChain o (h o ho) a b) s

/-- Settles O41: a run without a chain's pulses commutes with replacing that chain. Replacing it by its own values
shows that the run keeps it, replacing it by others that the rest does not depend on it. -/
theorem chainsAreIndependent : Obligations.ChainsAreIndependent := by
  intro ops a b v w s
  refine ⟨fun h => ?_, fun h => ?_⟩
  · have hkeep : runMicro ops s = withDigChain s.digSr s.digLatch (runMicro ops s) :=
      runMicro_withDigChain ops h s.digSr s.digLatch s
    have hother := runMicro_withDigChain ops h a b s
    exact ⟨(congrArg State.digSr hkeep :), (congrArg State.digLatch hkeep :),
      (congrArg State.segSr hother :), (congrArg State.segLatch hother :)⟩
  · have hkeep : runMicro ops s = withSegChain s.segSr s.segLatch (runMicro ops s) :=
      runMicro_withSegChain ops h s.segSr s.segLatch s
    have hother := runMicro_withSegChain ops h v w s
    exact ⟨(congrArg State.segSr hkeep :), (congrArg State.segLatch hkeep :),
      (congrArg State.digSr hother :), (congrArg State.digLatch hother :)⟩

end Sys2Proof.Machine
end

section
/-!
The scan controller (42_scan_controller.md section 2): the pulses of ShiftSegWord bit by bit, what a run of
micro-operations keeps, and from these the decimal-point line and the segment latch that a SCAN leaves.
-/

namespace Sys2Proof.Machine

/-- The last `n` pulses of ShiftSegWord load the low `n` bits of the word and move the old stages up by `n`. -/
theorem runMicro_shiftSegFrom_segSr_getLsbD (w : Word) (n : Nat) (s : State) (j : Nat) (hj : j < 16) :
    (runMicro (shiftSegFrom w n) s).segSr.getLsbD j = if j < n then w.getLsbD j else s.segSr.getLsbD (j - n) := by
  induction n generalizing s with
  | zero => rfl
  | succ n ih =>
    rw [shiftSegFrom, runMicro_cons, runMicro_cons, ih]
    rcases Nat.lt_trichotomy j n with hlt | rfl | hgt
    · rw [if_pos hlt, if_pos (by omega)]
    · rw [if_neg (Nat.lt_irrefl j), if_pos (Nat.lt_succ_self j), Nat.sub_self]
      exact segShifted_getLsbD s.segSr (w.getLsbD j) 0 (by decide)
    · rw [if_neg (by omega), if_neg (by omega), show j - n = j - (n + 1) + 1 by omega]
      exact segShifted_getLsbD s.segSr (w.getLsbD n) (j - (n + 1) + 1) (by omega)

theorem runMicro_shiftSegWord_segSr (w : Word) (s : State) : (runMicro (shiftSegWord w) s).segSr = w :=
  BitVec.eq_of_getLsbD_eq fun j hj => by rw [shiftSegWord, runMicro_shiftSegFrom_segSr_getLsbD w 16 s j hj, if_pos hj]

/-- What each micro-operation of a run keeps, the run keeps. -/
theorem runMicro_keeps {α : Type} (g : State → α) (os : List MicroOp)
    (h : ∀ o ∈ os, ∀ s, g (microStep o s) = g s) (s : State) : g (runMicro os s) = g s := by
  induction os generalizing s with
  | nil => rfl
  | cons o os ih =>
    obtain ⟨ho, hos⟩ := List.forall_mem_cons.mp h
    rw [runMicro_cons, ih hos, ho]

/-- ShiftDigitSelect only sets the data line and pulses the digit shift clock (41_shift_register_driver.md R129). -/
theorem mem_shiftDigitFrom (k n : Nat) (o : MicroOp) (h : o ∈ shiftDigitFrom k n) :
    o = .pulseDigShift ∨ ∃ b, o = .setData b := by
  induction n with
  | zero => cases h
  | succ n ih =>
    rcases List.mem_cons.mp h with rfl | h
    · exact .inr ⟨_, rfl⟩
    rcases List.mem_cons.mp h with rfl | h
    · exact .inl rfl
    · exact ih h

/-- What the data line and the digit shift clock leave alone, ShiftDigitSelect keeps. -/
theorem runMicro_shiftDigitSelect_keeps {α : Type} (g : State → α)
    (hdata : ∀ b s, g (microStep (.setData b) s) = g s) (hpulse : ∀ s, g (microStep .pulseDigShift s) = g s)
    (depth k : Nat) (s : State) : g (runMicro (shiftDigitSelect depth k) s) = g s :=
  runMicro_keeps g _ (fun o ho => by
    rcases mem_shiftDigitFrom k depth o ho with rfl | ⟨b, rfl⟩
    · exact hpulse
    · exact hdata b) s

/-- R142 steps 7 and 8 store the segment stages in the segment latch. -/
theorem runMicro_stores_segLatch (s : State) :
    (runMicro [.pulseSegStore, .pulseDigStore, .setSink true] s).segLatch = s.segSr := rfl

theorem runMicro_stores_dpLineN (s : State) :
    (runMicro [.pulseSegStore, .pulseDigStore, .setSink true] s).dpLineN = s.dpLineN := rfl

/-- SetDP (R142 step 5) is the only one of SCAN's micro-operations on the decimal-point line. -/
theorem driven_dpLineN (sn : Snapshot) (s : State) : (driven sn s).dpLineN = dpLevel sn.d := by
  rw [driven, scanOps, runMicro_append, runMicro_append, runMicro_stores_dpLineN, runMicro_cons, runMicro_cons,
    runMicro_shiftDigitSelect_keeps State.dpLineN (fun _ _ => rfl) (fun _ => rfl), microStep_setDP]

/-- The word shifted in at R142 step 3 is the one stored, the digit select between them leaving its stages alone. -/
theorem driven_segLatch (sn : Snapshot) (s : State) : (driven sn s).segLatch = sn.w := by
  rw [driven, scanOps, runMicro_append, runMicro_append, runMicro_stores_segLatch, runMicro_cons, runMicro_cons,
    runMicro_shiftDigitSelect_keeps State.segSr (fun _ _ => rfl) (fun _ => rfl), microStep_setDP, microStep_setSink,
    runMicro_shiftSegWord_segSr]

/-- A SCAN of a digit with word `w` latches `w` and sets the line from the digit's decimal-point bit. -/
theorem scanStep_of_word (s : State) (w : Word) (h : bufRead s s.idx = some w) :
    ∃ t, scanStep s = .next t ∧ t.segLatch = w ∧ t.dpLineN = !dpRead s s.idx := by
  have hsn : takeSnapshot s = some ⟨s.idx, w, dpRead s s.idx⟩ := (takeSnapshot_eq_some_iff s _).mpr ⟨h, rfl, rfl⟩
  exact ⟨_, (scanStep_next_iff s _).mpr ⟨_, hsn, rfl⟩, driven_segLatch _ s, driven_dpLineN _ s⟩

/-- In a state with the invariant the digit to be scanned has a word. -/
theorem bufRead_idx_of_inv (s : State) (h : s.Inv) : ∃ w, bufRead s s.idx = some w := by
  obtain ⟨⟨hlen, -⟩, hidx, -⟩ := h
  exact Option.isSome_iff_exists.mp ((bufRead_isSome_iff s s.idx).mpr (hlen ▸ hidx))

/-- Settles O48: the SCAN with the mask replaced reads the same word, so both latch it. -/
theorem decimalPointFollowsTheMask : Obligations.DecimalPointFollowsTheMask := by
  intro dp s hinv
  obtain ⟨w, hw⟩ := bufRead_idx_of_inv s hinv
  obtain ⟨t, ht, htw, htd⟩ := scanStep_of_word s w hw
  obtain ⟨u, hu, huw, -⟩ := scanStep_of_word { s with dp := dp } w hw
  exact ⟨t, u, ht, by rw [htd, Bool.not_eq_false'], by rw [htw, hw], hu, by rw [huw, htw]⟩

end Sys2Proof.Machine
end

section
/-!
The brightness commands (43_brightness.md): the clamp of a level and the order of the compare values.
-/

namespace Sys2Proof.Machine

/-- The comparator's case: the multiplexer selects 7. -/
theorem clampLevel_of_gt (l : BitVec 8) (h : 7 < l.toNat) : clampLevel l = 7 :=
  Fin.ext (Nat.min_eq_right (Nat.le_of_lt h))

/-- The other case: the multiplexer selects `l[2:0]`. -/
theorem clampLevel_of_le (l : BitVec 8) (h : l.toNat ≤ 7) : clampLevel l = (l.extractLsb' 0 3).toFin := by
  have hlow : (l.extractLsb' 0 3).toNat = l.toNat := by
    rw [BitVec.extractLsb'_toNat, Nat.shiftRight_zero, Nat.mod_eq_of_lt (by omega)]
  exact Fin.ext ((Nat.min_eq_left h).trans hlow.symm)

/-- The compare value of a level is the table's entry at its clamp. -/
theorem brightnessCompare_of_clampLevel (c : Config) (l : BitVec 8) (n : Fin 8) (h : clampLevel l = n) :
    brightnessCompare c l = c.brtTable[n] := by
  subst h
  rfl

/-- `table_strict` compares neighbours only; by transitivity the whole table is increasing (00_scope.md R8). -/
theorem brtTable_strictMono (c : Config) (i j : Fin 8) (h : i < j) : c.brtTable[i] < c.brtTable[j] := by
  obtain ⟨-, -, -, hstrict⟩ := c.wf
  have hmono : StrictMono fun i : Fin 8 => c.brtTable[i].toNat :=
    Fin.strictMono_iff_lt_succ.mpr fun i => BitVec.lt_def.mp (hstrict i)
  exact BitVec.lt_def.mpr (hmono h)

/-- Settles O15, by the two cases of the clamp and the table's order. -/
theorem levelSelectsATableEntry : Obligations.LevelSelectsATableEntry :=
  fun c l => ⟨fun h => brightnessCompare_of_clampLevel c l 7 (clampLevel_of_gt l h),
    fun h => brightnessCompare_of_clampLevel c l _ (clampLevel_of_le l h), brtTable_strictMono c⟩

end Sys2Proof.Machine
end

section
/-!
The decoder of one opcode (30_encoding.md R74 to R76): a word with a row's opcode decodes to that row's command
exactly when the row's reserved bits are clear. From this, SETSEP (43_brightness.md R163).
-/

namespace Sys2Proof

theorem Mnemonic.mnemonic_instrOf (o : Mnemonic) (w : CommandWord) : (o.instrOf w).mnemonic = o := by
  cases o <;> rfl

/-- A row's command is the decoding of exactly the words that match the row. -/
theorem decode_eq_instrOf_iff (w : CommandWord) (o : Mnemonic) :
    decode w = .command (o.instrOf w) ↔ o.row.matchesWord w = true := by
  refine ⟨fun h => ?_, decode_of_matches w o⟩
  obtain ⟨o', hmatch, hinstr⟩ := decode_eq_command w _ h
  have ho : o = o' := by rw [← o.mnemonic_instrOf w, hinstr, o'.mnemonic_instrOf]
  rwa [ho]

/-- The opcode bits in place, from the opcode as a number. -/
theorem opcode_bits_of_div (w : CommandWord) (n : Nat) (h : w.toNat / 2 ^ 28 = n) :
    w &&& 0xF0000000#32 = BitVec.ofNat 32 n <<< 28 := by
  have hop : w >>> 28 = BitVec.ofNat 32 n := by
    apply BitVec.eq_of_toNat_eq
    rw [BitVec.toNat_ushiftRight, Nat.shiftRight_eq_div_pow, h, BitVec.toNat_ofNat, Nat.mod_eq_of_lt (by omega)]
  rw [← hop, BitVec.shiftLeft_ushiftRight]
  rfl

/-- A word whose opcode is that of a row matches the row exactly when the row's other fixed bits, the reserved ones,
are clear. -/
theorem Mnemonic.matchesWord_iff_reserved_clear (o : Mnemonic) (w : CommandWord)
    (h : w &&& 0xF0000000#32 = o.row.pattern) :
    o.row.matchesWord w = true ↔ w &&& (o.row.mask &&& 0x0FFFFFFF#32) = 0#32 := by
  have hmask : o.row.mask = 0xF0000000#32 ||| (o.row.mask &&& 0x0FFFFFFF#32) := by cases o <;> rfl
  have hpattern : o.row.pattern &&& (o.row.mask &&& 0x0FFFFFFF#32) = 0#32 := by cases o <;> rfl
  have hsplit : w &&& o.row.mask = o.row.pattern ||| (w &&& (o.row.mask &&& 0x0FFFFFFF#32)) := by
    rw [← h, ← BitVec.and_or_distrib_left, ← hmask]
  rw [Row.matchesWord, beq_iff_eq]
  refine ⟨fun hmatch => ?_, fun hclear => by rw [hsplit, hclear, BitVec.or_zero]⟩
  calc w &&& (o.row.mask &&& 0x0FFFFFFF#32)
      = (w &&& o.row.mask) &&& (o.row.mask &&& 0x0FFFFFFF#32) := by
        rw [BitVec.and_assoc, ← BitVec.and_assoc o.row.mask, BitVec.and_self]
    _ = 0#32 := by rw [hmatch, hpattern]

end Sys2Proof

namespace Sys2Proof.Machine

theorem exec_setsep_running (v : Bool) (s : State) (h : s.fault = none) :
    exec (.setsep v) s = .next { s with enSep := v, resp := none } :=
  commandStep_running s (fun s => respondNone { s with enSep := v }) h

/-- Settles O20: the command has no fault of its own, and of a word with opcode 6 the decoder asks only that the
reserved bits be clear. -/
theorem setsepWritesTheSeparatorEnable : Obligations.SetsepWritesTheSeparatorEnable := by
  refine ⟨exec_setsep_running, fun w hop => ?_⟩
  have hrow : w &&& 0xF0000000#32 = Mnemonic.SETSEP.row.pattern := opcode_bits_of_div w 6 hop
  exact (decode_eq_instrOf_iff w .SETSEP).trans (Mnemonic.SETSEP.matchesWord_iff_reserved_clear w hrow)

end Sys2Proof.Machine
end

section
/-!
The decoder and the encoder (30_encoding.md): a command word is its row's fixed bits with the fields laid over them,
so that each of the two undoes the other; the assembler's words (R79); and the opcodes that no row has (R77).
-/

namespace Sys2Proof

/-- A field of a command word, put back in its place, is the word under the field's mask. -/
theorem field_in_place (w : CommandWord) (start len : Nat) :
    (w.extractLsb' start len).setWidth 32 <<< start = w &&& ((BitVec.allOnes len).setWidth 32 <<< start) := by
  refine BitVec.eq_of_getLsbD_eq fun j hj => ?_
  rw [BitVec.getLsbD_and, BitVec.getLsbD_shiftLeft, BitVec.getLsbD_shiftLeft, BitVec.getLsbD_setWidth,
    BitVec.getLsbD_setWidth, BitVec.getLsbD_extractLsb', BitVec.getLsbD_allOnes]
  by_cases hstart : j < start
  · simp [hstart]
  · simp [hstart, Nat.add_sub_cancel' (Nat.le_of_not_lt hstart), Bool.and_comm, Bool.and_left_comm, Bool.and_assoc]

/-- A value laid over a field is read back from it. -/
theorem extractLsb'_setWidth_self (len : Nat) (v : BitVec len) (h : len ≤ 32) :
    (v.setWidth 32).extractLsb' 0 len = v := by
  rw [BitVec.extractLsb'_setWidth_of_le (by omega), BitVec.extractLsb'_eq_self]

theorem bitField_getLsbD (w : CommandWord) (j : Nat) :
    bitField (w.getLsbD j) = (w.extractLsb' j 1).setWidth 32 := by
  have hbit : BitVec.ofBool (w.getLsbD j) = w.extractLsb' j 1 :=
    BitVec.eq_of_getLsbD_eq fun i hi => by
      obtain rfl : i = 0 := by omega
      simp
  rw [bitField, hbit]

theorem ofNat_idxField (w : CommandWord) : BitVec.ofNat 32 (idxField w).val = (w.extractLsb' 16 4).setWidth 32 :=
  BitVec.ofNat_toNat _ _

/-- Encoding the command that a word of a row spells gives the row's fixed bits and the word's own bits elsewhere. -/
theorem encode_instrOf (o : Mnemonic) (w : CommandWord) :
    encode (o.instrOf w) = o.row.pattern ||| (w &&& ~~~o.row.mask) := by
  have himm := field_in_place w 0 16
  have hidx := field_in_place w 16 4
  have hlvl := field_in_place w 0 8
  have hbit0 := field_in_place w 0 1
  have hbit1 := field_in_place w 1 1
  rw [BitVec.shiftLeft_zero] at himm hlvl hbit0
  cases o with
  | MAP => exact congrArg (0x10000000#32 ||| ·) himm
  | WRSEG =>
    rw [Mnemonic.instrOf, encode, ofNat_idxField, imm16Field, hidx, himm, BitVec.or_assoc,
      ← BitVec.and_or_distrib_left]
    rfl
  | WRDP =>
    rw [Mnemonic.instrOf, encode, ofNat_idxField, bit0Field, bitField_getLsbD, hidx, hbit0, BitVec.or_assoc,
      ← BitVec.and_or_distrib_left]
    rfl
  | SETBRT => exact congrArg (0x40000000#32 ||| ·) hlvl
  | SETFLAGS =>
    rw [Mnemonic.instrOf, encode, bit0Field, bit1Field, bitField_getLsbD, bitField_getLsbD, hbit0, hbit1,
      BitVec.or_assoc, ← BitVec.and_or_distrib_left]
    rfl
  | SETSEP =>
    rw [Mnemonic.instrOf, encode, bit0Field, bitField_getLsbD, hbit0]
    rfl
  | ENOUT => exact (congrArg (0x70000000#32 ||| ·) BitVec.and_zero).symm

theorem encode_instrOf_of_matches (o : Mnemonic) (w : CommandWord) (h : o.row.matchesWord w = true) :
    encode (o.instrOf w) = w := by
  rw [Row.matchesWord, beq_iff_eq] at h
  rw [encode_instrOf, ← h, ← BitVec.and_or_distrib_left, BitVec.or_not_self, BitVec.and_allOnes]

/-- Settles O3: the word matches the row of its command, and the encoder lays the same fields over the same bits. -/
theorem decodedWordIsTheOnlyEncoding : Obligations.DecodedWordIsTheOnlyEncoding := by
  intro w i h
  obtain ⟨o, hmatch, rfl⟩ := decode_eq_command w i h
  exact encode_instrOf_of_matches o w hmatch

/-- The word of a command matches its mnemonic's row, whatever the operands. -/
theorem row_matchesWord_encode (i : Instr) : i.mnemonic.row.matchesWord (encode i) = true := by
  cases i with
  | map m => exact Laws.EncodesInRow.map m
  | wrseg k m => exact Laws.EncodesInRow.wrseg k m
  | wrdp k v => exact Laws.EncodesInRow.wrdp k v
  | setbrt l => exact Laws.EncodesInRow.setbrt l
  | setflags am pm => exact Laws.EncodesInRow.setflags am pm
  | setsep v => exact Laws.EncodesInRow.setsep v
  | enout => exact Laws.EncodesInRow.enout

/-- A 16-bit operand laid over fixed bits that leave its field clear is read back. -/
theorem imm16Field_or (p : CommandWord) (m : Word) (h : p.extractLsb' 0 16 = 0#16) :
    imm16Field (p ||| m.setWidth 32) = m := by
  rw [imm16Field, BitVec.extractLsb'_or, h, BitVec.zero_or, extractLsb'_setWidth_self 16 m (by decide)]

/-- A 16-bit operand does not reach the index field. -/
theorem idxField_or (p : CommandWord) (m : Word) : idxField (p ||| m.setWidth 32) = idxField p := by
  have habove : m.extractLsb' 16 4 = 0#4 :=
    BitVec.eq_of_getLsbD_eq fun j _ => by
      rw [BitVec.getLsbD_extractLsb', BitVec.getLsbD_of_ge m (16 + j) (by omega), Bool.and_false, BitVec.getLsbD_zero]
  rw [idxField, BitVec.extractLsb'_or, BitVec.extractLsb'_setWidth_of_le (by decide), habove, BitVec.or_zero, idxField]

theorem lvlField_encode (l : BitVec 8) : lvlField (encode (.setbrt l)) = l := by
  rw [encode, lvlField, BitVec.extractLsb'_or, extractLsb'_setWidth_self 8 l (by decide)]
  exact BitVec.zero_or

/-- The fields of a command's word are its operands. -/
theorem instrOf_encode (i : Instr) : i.mnemonic.instrOf (encode i) = i := by
  cases i with
  | map m => exact congrArg Instr.map (imm16Field_or 0x10000000#32 m rfl)
  | wrseg k m =>
    have himm : ∀ k : Fin 16, (0x20000000#32 ||| (BitVec.ofNat 32 k.val <<< 16)).extractLsb' 0 16 = 0#16 := by decide
    have hidx : ∀ k : Fin 16, idxField (0x20000000#32 ||| (BitVec.ofNat 32 k.val <<< 16)) = k := by decide
    exact congrArg₂ Instr.wrseg ((idxField_or _ m).trans (hidx k)) (imm16Field_or _ m (himm k))
  | wrdp k v =>
    have hall : ∀ (k : Fin 16) (v : Bool), Mnemonic.WRDP.instrOf (encode (.wrdp k v)) = .wrdp k v := by decide
    exact hall k v
  | setbrt l => exact congrArg Instr.setbrt (lvlField_encode l)
  | setflags am pm =>
    have hall : ∀ am pm : Bool, Mnemonic.SETFLAGS.instrOf (encode (.setflags am pm)) = .setflags am pm := by decide
    exact hall am pm
  | setsep v =>
    have hall : ∀ v : Bool, Mnemonic.SETSEP.instrOf (encode (.setsep v)) = .setsep v := by decide
    exact hall v
  | enout => rfl

/-- Settles O2: the word matches its command's row, and the row's fields hold the operands. -/
theorem decodeOfEncodeIsTheCommand : Obligations.DecodeOfEncodeIsTheCommand := fun i => by
  rw [decode_of_matches _ _ (row_matchesWord_encode i), instrOf_encode]

/-- Settles O1, by running the decoder on the thirteen words. -/
theorem specExampleWordsDecode : Obligations.SpecExampleWordsDecode := by
  unfold Obligations.SpecExampleWordsDecode
  decide

theorem Row.matchesWord_iff (r : Row) (w : CommandWord) : r.matchesWord w = true ↔ w &&& r.mask = r.pattern :=
  beq_iff_eq

/-- Settles O4: a word in a row is the row's command, and a word in no row is illegal. -/
theorem decodeFollowsTheOpcodeMap : Obligations.DecodeFollowsTheOpcodeMap := by
  intro w
  have hrow (o : Mnemonic) (h : w &&& o.row.mask = o.row.pattern) : decode w = .command (o.instrOf w) :=
    decode_of_matches w o ((Row.matchesWord_iff _ _).mpr h)
  refine ⟨hrow .MAP, hrow .WRSEG, hrow .WRDP, hrow .SETBRT, hrow .SETFLAGS, hrow .SETSEP, ?_, ?_⟩
  · rintro rfl
    exact hrow .ENOUT rfl
  · intro hmap hwrseg hwrdp hsetbrt hsetflags hsetsep henout
    refine decode_of_no_match w fun o => Bool.eq_false_iff.mpr fun hmatch => ?_
    have h := (Row.matchesWord_iff _ _).mp hmatch
    cases o with
    | MAP => exact hmap h
    | WRSEG => exact hwrseg h
    | WRDP => exact hwrdp h
    | SETBRT => exact hsetbrt h
    | SETFLAGS => exact hsetflags h
    | SETSEP => exact hsetsep h
    | ENOUT => exact henout (BitVec.and_allOnes.symm.trans h)

/-- The opcode of a word that a row matches is the row's. -/
theorem opcode_of_matches (w : CommandWord) (o : Mnemonic) (h : o.row.matchesWord w = true) :
    w &&& 0xF0000000#32 = o.row.pattern &&& 0xF0000000#32 := by
  rw [← (Row.matchesWord_iff _ _).mp h, BitVec.and_assoc, o.row_mask_opcode]

/-- The opcodes of the rows are 1 to 7. -/
theorem Mnemonic.pattern_opcode_ne (o : Mnemonic) (n : Fin 16) (hn : n = 0 ∨ 8 ≤ n) :
    BitVec.ofNat 32 n.val <<< 28 ≠ o.row.pattern &&& 0xF0000000#32 := by
  revert n
  cases o <;> decide

theorem decode_of_unassigned_opcode (w : CommandWord) (h : w.toNat / 2 ^ 28 = 0 ∨ 8 ≤ w.toNat / 2 ^ 28) :
    decode w = .illegal w := by
  have hlt : w.toNat / 2 ^ 28 < 16 := by omega
  refine decode_of_no_match w fun o => Bool.eq_false_iff.mpr fun hmatch => ?_
  refine o.pattern_opcode_ne ⟨w.toNat / 2 ^ 28, hlt⟩ (h.imp Fin.ext id) ?_
  rw [← opcode_of_matches w o hmatch, opcode_bits_of_div w _ rfl]

-- what the fields of an operand in range are, as numbers

theorem ofNat_shiftLeft_ofNat (k n : Nat) : BitVec.ofNat 32 (k <<< n) = BitVec.ofNat 32 k <<< n := by
  apply BitVec.eq_of_toNat_eq
  simp [Nat.shiftLeft_eq]

theorem bitField_beq_one (v : Nat) (h : v ≤ 1) : bitField (v == 1) = BitVec.ofNat 32 v := by
  have hall : ∀ v : Fin 2, bitField (v.val == 1) = BitVec.ofNat 32 v.val := by decide
  exact hall ⟨v, by omega⟩

theorem ofNat_val_of_le (k : Nat) (h : k ≤ 15) : (Fin.ofNat 16 k).val = k := Nat.mod_eq_of_lt (by omega)

/-- A line without an error assembles to the encoder's word. -/
theorem AsmLine.assemble_of_accepted (a : AsmLine) (h : a.error = none) : a.assemble = .ok (encode a.instr) := by
  rw [AsmLine.assemble, h]

/-- A line with an error is rejected with it. -/
theorem AsmLine.assemble_of_rejected (a : AsmLine) (e : OperandError) (h : a.error = some e) :
    a.assemble = .error e := by
  rw [AsmLine.assemble, h]

theorem assemble_map (m : Nat) : (m ≤ 0xFFFF → (AsmLine.map m).assemble = .ok (BitVec.ofNat 32 (0x10000000 ||| m))) ∧
    (0xFFFF < m → ∃ e, (AsmLine.map m).assemble = .error e) := by
  refine ⟨fun hm => ?_, fun hm => ⟨_, AsmLine.assemble_of_rejected _ _ (if_pos hm)⟩⟩
  rw [AsmLine.assemble_of_accepted (.map m) (if_neg (Nat.not_lt.mpr hm)), AsmLine.instr, encode,
    BitVec.setWidth_ofNat_of_le_of_lt (by decide) (by omega), BitVec.ofNat_or]

theorem assemble_wrseg (k m : Nat) : (k ≤ 15 → m ≤ 0xFFFF →
      (AsmLine.wrseg k m).assemble = .ok (BitVec.ofNat 32 (0x20000000 ||| (k <<< 16) ||| m))) ∧
    (15 < k ∨ 0xFFFF < m → ∃ e, (AsmLine.wrseg k m).assemble = .error e) := by
  refine ⟨fun hk hm => ?_, fun h => ?_⟩
  · have haccepted : (AsmLine.wrseg k m).error = none :=
      (if_neg (Nat.not_lt.mpr hk)).trans (if_neg (Nat.not_lt.mpr hm))
    rw [AsmLine.assemble_of_accepted _ haccepted, AsmLine.instr, encode, ofNat_val_of_le k hk,
      BitVec.setWidth_ofNat_of_le_of_lt (by decide) (by omega), BitVec.ofNat_or, BitVec.ofNat_or, ofNat_shiftLeft_ofNat]
  · by_cases hk : 15 < k
    · exact ⟨_, AsmLine.assemble_of_rejected _ _ (if_pos hk)⟩
    · exact ⟨_, AsmLine.assemble_of_rejected _ _ ((if_neg hk).trans (if_pos (h.resolve_left hk)))⟩

theorem assemble_wrdp (k v : Nat) : (k ≤ 15 → v ≤ 1 →
      (AsmLine.wrdp k v).assemble = .ok (BitVec.ofNat 32 (0x30000000 ||| (k <<< 16) ||| v))) ∧
    (15 < k ∨ 1 < v → ∃ e, (AsmLine.wrdp k v).assemble = .error e) := by
  refine ⟨fun hk hv => ?_, fun h => ?_⟩
  · have haccepted : (AsmLine.wrdp k v).error = none :=
      (if_neg (Nat.not_lt.mpr hk)).trans (if_neg (Nat.not_lt.mpr hv))
    rw [AsmLine.assemble_of_accepted _ haccepted, AsmLine.instr, encode, ofNat_val_of_le k hk, bitField_beq_one v hv,
      BitVec.ofNat_or, BitVec.ofNat_or, ofNat_shiftLeft_ofNat]
  · by_cases hk : 15 < k
    · exact ⟨_, AsmLine.assemble_of_rejected _ _ (if_pos hk)⟩
    · exact ⟨_, AsmLine.assemble_of_rejected _ _ ((if_neg hk).trans (if_pos (h.resolve_left hk)))⟩

theorem assemble_setbrt (l : Nat) : (l ≤ 255 → (AsmLine.setbrt l).assemble = .ok (BitVec.ofNat 32 (0x40000000 ||| l))) ∧
    (255 < l → ∃ e, (AsmLine.setbrt l).assemble = .error e) := by
  refine ⟨fun hl => ?_, fun hl => ⟨_, AsmLine.assemble_of_rejected _ _ (if_pos hl)⟩⟩
  rw [AsmLine.assemble_of_accepted (.setbrt l) (if_neg (Nat.not_lt.mpr hl)), AsmLine.instr, encode,
    BitVec.setWidth_ofNat_of_le_of_lt (by decide) (by omega), BitVec.ofNat_or]

theorem assemble_setsep (v : Nat) : (v ≤ 1 → (AsmLine.setsep v).assemble = .ok (BitVec.ofNat 32 (0x60000000 ||| v))) ∧
    (1 < v → ∃ e, (AsmLine.setsep v).assemble = .error e) := by
  refine ⟨fun hv => ?_, fun hv => ⟨_, AsmLine.assemble_of_rejected _ _ (if_pos hv)⟩⟩
  rw [AsmLine.assemble_of_accepted (.setsep v) (if_neg (Nat.not_lt.mpr hv)), AsmLine.instr, encode,
    bitField_beq_one v hv, BitVec.ofNat_or]

/-- The flags are bits already, so every line is accepted. -/
theorem assemble_setflags (am pm : Bool) : (AsmLine.setflags am pm).assemble =
    .ok (BitVec.ofNat 32 (0x50000000 ||| (pm.toNat <<< 1) ||| am.toNat)) := by
  cases am <;> cases pm <;> rfl

/-- Settles O6, one form of line at a time. -/
theorem assemblerAcceptsExactlyTheRanges : Obligations.AssemblerAcceptsExactlyTheRanges :=
  ⟨assemble_map, assemble_wrseg, assemble_wrdp, assemble_setbrt, assemble_setflags, assemble_setsep, rfl⟩

end Sys2Proof
end

section
/-!
The laws of the remapper (40_segment_mapper.md section 4), each read off at the hardware positions PERM.
-/

namespace Sys2Proof.Machine

theorem fromHardwareOrder_getLsbD (c : Config) (w : Word) (i : Fin 16) :
    (fromHardwareOrder c w).getLsbD i.val = !w.getLsbD c.perm[i].val :=
  orBits_at (fun i => !w.getLsbD c.perm[i].val) id (fun _ _ h => h) i

theorem fromHardwareOrder_toHardwareOrder (c : Config) (x : Word) : fromHardwareOrder c (toHardwareOrder c x) = x :=
  BitVec.eq_of_getLsbD_eq fun j hj => by
    rw [fromHardwareOrder_getLsbD c _ ⟨j, hj⟩, toHardwareOrder_getLsbD_perm, Bool.not_not]

theorem toHardwareOrder_fromHardwareOrder (c : Config) (w : Word) : toHardwareOrder c (fromHardwareOrder c w) = w :=
  word_ext_perm c fun i => by rw [toHardwareOrder_getLsbD_perm, fromHardwareOrder_getLsbD, Bool.not_not]

/-- Settles O8, by its two inverse laws. -/
theorem remapperIsABijection : Obligations.RemapperIsABijection :=
  fun c x => ⟨fromHardwareOrder_toHardwareOrder c x, toHardwareOrder_fromHardwareOrder c x⟩

/-- The count over the positions as elements of `Fin 16`. -/
theorem popcount_eq_countP_finRange (v : Word) : popcount v = (List.finRange 16).countP fun i => v.getLsbD i.val := by
  rw [popcount, ← List.map_coe_finRange_eq_range, List.countP_map]
  rfl

/-- Reordering the bits keeps their number. -/
theorem popcount_permute (c : Config) (x : Word) : popcount (permute c x) = popcount x := by
  obtain ⟨-, -, hinj, -⟩ := c.wf
  have hbij : Function.Bijective fun i : Fin 16 => c.perm[i] := ⟨fun i j => hinj i j, perm_surjective c⟩
  have hreorder := Equiv.Perm.map_finRange_perm (Equiv.ofBijective _ hbij)
  calc popcount (permute c x)
      = ((List.finRange 16).map fun i => c.perm[i]).countP fun i => (permute c x).getLsbD i.val := by
        rw [popcount_eq_countP_finRange]
        exact (hreorder.countP_eq _).symm
    _ = (List.finRange 16).countP fun i => x.getLsbD i.val := by
        rw [List.countP_map]
        exact congrArg (List.countP · _) (funext (permute_getLsbD_perm c x))
    _ = popcount x := (popcount_eq_countP_finRange x).symm

/-- Settles O9: the inversion is undone, and the rest is a reordering. -/
theorem remapperKeepsTheLitCount : Obligations.RemapperKeepsTheLitCount := fun c x => by
  rw [toHardwareOrder, BitVec.not_not, popcount_permute]

theorem toHardwareOrder_or (c : Config) (x y : Word) :
    toHardwareOrder c (x ||| y) = toHardwareOrder c x &&& toHardwareOrder c y :=
  word_ext_perm c fun i => by
    rw [BitVec.getLsbD_and, toHardwareOrder_getLsbD_perm, toHardwareOrder_getLsbD_perm, toHardwareOrder_getLsbD_perm,
      BitVec.getLsbD_or, Bool.not_or]

theorem toHardwareOrder_and (c : Config) (x y : Word) :
    toHardwareOrder c (x &&& y) = toHardwareOrder c x ||| toHardwareOrder c y :=
  word_ext_perm c fun i => by
    rw [BitVec.getLsbD_or, toHardwareOrder_getLsbD_perm, toHardwareOrder_getLsbD_perm, toHardwareOrder_getLsbD_perm,
      BitVec.getLsbD_and, Bool.not_and]

/-- Settles O10, by De Morgan's laws at each position. -/
theorem remapperExchangesOrAndAnd : Obligations.RemapperExchangesOrAndAnd :=
  fun c x y => ⟨toHardwareOrder_or c x y, toHardwareOrder_and c x y⟩

end Sys2Proof.Machine
end

section
/-!
The commands as functions of the state (30_encoding.md R74): each runs its effect, a total function, exactly while no
fault is recorded. From the effects, what each command writes, and which commands commute.
-/

namespace Sys2Proof

open Machine

/-- What a command does to a state without a fault. -/
def Instr.effect : Instr → State → State
  | .map m, s => respond (toHardwareOrder s.cfg m) s
  | .wrseg k m, s => withIndex .WRSEG k (fun s => respondNone (bufWrite s k.val (toHardwareOrder s.cfg m))) s
  | .wrdp k v, s => withIndex .WRDP k (fun s => respondNone (dpWrite s k.val v)) s
  | .setbrt l, s => respondNone (programChannels (brightnessCompare s.cfg l) s)
  | .setflags am pm, s => respondNone { s with enAm := am, enPm := pm }
  | .setsep v, s => respondNone { s with enSep := v }
  | .enout, s => respondNone { s with oeDig := true, oeSeg := true }

end Sys2Proof

namespace Sys2Proof.Machine

theorem exec_eq_commandStep (i : Instr) (s : State) : exec i s = commandStep s i.effect := by
  cases i <;> rfl

theorem exec_running (i : Instr) (s : State) (h : s.fault = none) : exec i s = .next (i.effect s) := by
  rw [exec_eq_commandStep, commandStep_running s _ h]

theorem exec_next_iff (i : Instr) (s t : State) : exec i s = .next t ↔ s.fault = none ∧ i.effect s = t := by
  rw [exec_eq_commandStep, commandStep_next_iff]

theorem effect_wrseg_below (k : Fin 16) (m : Word) (s : State) (h : k.val < s.cfg.ndigits) :
    (Instr.wrseg k m).effect s = respondNone (bufWrite s k.val (toHardwareOrder s.cfg m)) :=
  withIndex_below .WRSEG k (fun s => respondNone (bufWrite s k.val (toHardwareOrder s.cfg m))) s h

theorem effect_wrdp_below (k : Fin 16) (v : Bool) (s : State) (h : k.val < s.cfg.ndigits) :
    (Instr.wrdp k v).effect s = respondNone (dpWrite s k.val v) :=
  withIndex_below .WRDP k (fun s => respondNone (dpWrite s k.val v)) s h

theorem effect_wrseg_beyond (k : Fin 16) (m : Word) (s : State) (h : s.cfg.ndigits ≤ k.val) :
    (Instr.wrseg k m).effect s = raiseFault (.indexOutOfRange .WRSEG k) s :=
  withIndex_beyond .WRSEG k (fun s => respondNone (bufWrite s k.val (toHardwareOrder s.cfg m))) s h

theorem effect_wrdp_beyond (k : Fin 16) (v : Bool) (s : State) (h : s.cfg.ndigits ≤ k.val) :
    (Instr.wrdp k v).effect s = raiseFault (.indexOutOfRange .WRDP k) s :=
  withIndex_beyond .WRDP k (fun s => respondNone (dpWrite s k.val v)) s h

/-- Settles O11: the response is the remapper's word. -/
theorem mapRespondsTheRemappedMask : Obligations.MapRespondsTheRemappedMask :=
  fun m s h => ⟨toHardwareOrder s.cfg m, exec_running (.map m) s h, toHardwareOrder_getLsbD_perm s.cfg m⟩

/-- Settles O12, by the reads of a buffer write. -/
theorem wrsegStoresOneSlot : Obligations.WrsegStoresOneSlot := by
  intro k m s hfault hwf hk
  obtain ⟨hlen, -⟩ := hwf
  refine ⟨_, exec_running _ s hfault, ?_⟩
  rw [effect_wrseg_below k m s hk]
  exact ⟨bufRead_bufWrite_same s k.val _ (hlen ▸ hk), fun j hj => bufRead_bufWrite_other s k.val j _ hj, rfl⟩

/-- Settles O13, by the reads of a decimal-point write. -/
theorem wrdpWritesOneBit : Obligations.WrdpWritesOneBit := by
  intro k v s hfault hk
  refine ⟨_, exec_running _ s hfault, ?_⟩
  rw [effect_wrdp_below k v s hk]
  refine ⟨(dpRead_dpWrite s k.val k.val v k.isLt).trans (if_pos rfl), fun j hj => ?_, fun j => rfl, rfl⟩
  exact (dpRead_dpWrite s k.val j v k.isLt).trans (if_neg hj)

/-- Settles O14: out of range, both commands are the recording of the fault. -/
theorem indexOutOfRangeIsPrecise : Obligations.IndexOutOfRangeIsPrecise := by
  intro k m v s hfault hk
  rw [exec_running _ s hfault, exec_running _ s hfault, effect_wrseg_beyond k m s hk, effect_wrdp_beyond k v s hk]
  exact ⟨rfl, rfl⟩

/-- Settles O16: the compare value is the table's entry at the clamped level. -/
theorem setbrtProgramsAllThreeChannels : Obligations.SetbrtProgramsAllThreeChannels := by
  intro l n s hfault hn
  rw [exec_running _ s hfault, Instr.effect, brightnessCompare_of_clampLevel s.cfg l n (Fin.ext hn.symm)]
  rfl

/-- Settles O19, by the command's effect. -/
theorem setflagsWritesTheTwoEnables : Obligations.SetflagsWritesTheTwoEnables :=
  fun am pm s h => exec_running (.setflags am pm) s h

/-- Levels that clamp alike run alike. -/
theorem exec_setbrt_of_clampLevel (l l' : BitVec 8) (s : State) (h : clampLevel l = clampLevel l') :
    exec (.setbrt l) s = exec (.setbrt l') s := by
  rw [exec, exec, execSetbrt, execSetbrt]
  simp only [brightnessCompare, h]

/-- Up to level 7 the clamp keeps the order, and the table is increasing. -/
theorem brightnessCompare_lt (c : Config) (l1 l2 : BitVec 8) (hlt : l1.toNat < l2.toNat) (hle : l2.toNat ≤ 7) :
    brightnessCompare c l1 < brightnessCompare c l2 := by
  refine brtTable_strictMono c (clampLevel l1) (clampLevel l2) (Fin.lt_def.mpr ?_)
  calc min l1.toNat 7 = l1.toNat := Nat.min_eq_left (by omega)
    _ < l2.toNat := hlt
    _ = min l2.toNat 7 := (Nat.min_eq_left hle).symm

/-- Settles O17, by the order below level 7 and the clamp from there on. -/
theorem brightnessIsStrictThenClamped : Obligations.BrightnessIsStrictThenClamped :=
  fun l1 l2 s => ⟨brightnessCompare_lt s.cfg l1 l2, fun h =>
    exec_setbrt_of_clampLevel l1 7 s (Fin.ext (Nat.min_eq_right h))⟩

/-- Settles O18: the second command overwrites the compare values and writes the period that stands there. -/
theorem brighterLevelRaisesComparesNotPeriod : Obligations.BrighterLevelRaisesComparesNotPeriod := by
  intro l1 l2 s hfault hlt hle
  have hless := brightnessCompare_lt s.cfg l1 l2 hlt hle
  exact ⟨_, _, exec_running _ s hfault, exec_running _ _ hfault, hless, hless, hless, rfl, rfl⟩

/-- Settles O26, by the frame of a command step. -/
theorem faultedStateExecutesNoCommand : Obligations.FaultedStateExecutesNoCommand :=
  fun i s r h => (exec_eq_commandStep i s).trans (commandStep_frozen s i.effect r h)

/-- A command with its index in range records no fault. -/
theorem effect_fault_of_indexBelow (i : Instr) (s : State) (h : i.indexBelow s.cfg.ndigits) :
    (i.effect s).fault = s.fault := by
  cases i with
  | wrseg k m => rw [effect_wrseg_below k m s h]; rfl
  | wrdp k v => rw [effect_wrdp_below k v s h]; rfl
  | map | setbrt | setflags | setsep | enout => rfl

/-- A command with its index out of range only records the fault. -/
theorem effect_of_not_indexBelow (i : Instr) (s : State) (h : ¬ i.indexBelow s.cfg.ndigits) :
    ∃ k, s.cfg.ndigits ≤ k.val ∧ (i.mnemonic = .WRSEG ∨ i.mnemonic = .WRDP) ∧
      i.effect s = raiseFault (.indexOutOfRange i.mnemonic k) s := by
  cases i with
  | wrseg k m => exact ⟨k, Nat.not_lt.mp h, .inl rfl, effect_wrseg_beyond k m s (Nat.not_lt.mp h)⟩
  | wrdp k v => exact ⟨k, Nat.not_lt.mp h, .inr rfl, effect_wrdp_beyond k v s (Nat.not_lt.mp h)⟩
  | map | setbrt | setflags | setsep | enout => exact absurd trivial h

/-- Settles O24: in range the effect leaves `fault` alone, out of range it is the recording of a fault. -/
theorem commandsFaultExactlyOutOfRange : Obligations.CommandsFaultExactlyOutOfRange := by
  intro i s hfault
  refine ⟨_, exec_running i s hfault, ?_⟩
  by_cases h : i.indexBelow s.cfg.ndigits
  · have hnone : (i.effect s).fault = none := (effect_fault_of_indexBelow i s h).trans hfault
    exact ⟨iff_of_true hnone h, fun hne => absurd hnone hne⟩
  · obtain ⟨k, -, -, heffect⟩ := effect_of_not_indexBelow i s h
    rw [heffect]
    exact ⟨iff_of_false (Option.some_ne_none _) h, fun _ => rfl⟩

/-- Settles O37: in range each command's effect is its own writes, and out of range that of WRSEG and WRDP is the
recording of the fault. -/
theorem commandsFollowTheAccessMatrix : Obligations.CommandsFollowTheAccessMatrix := by
  intro i s t h
  obtain ⟨-, rfl⟩ := (exec_next_iff i s t).mp h
  by_cases hk : i.indexBelow s.cfg.ndigits
  · cases i with
    | wrseg k m => simp [effect_wrseg_below k m s hk, Instr.mnemonic]
    | wrdp k v => simp [effect_wrdp_below k v s hk, Instr.mnemonic]
    | map | setbrt | setflags | setsep | enout => simp [Instr.effect, Instr.mnemonic]
  · obtain ⟨k, -, hop, heffect⟩ := effect_of_not_indexBelow i s hk
    rcases hop with hop | hop <;> simp [heffect, hop]

/-- Settles O23: the second command writes what already stands there. -/
theorem enoutEnablesBothBanks : Obligations.EnoutEnablesBothBanks := fun s h => by
  rw [exec_running .enout s h]
  exact ⟨rfl, exec_running .enout _ h⟩

/-- Two commands, the first with its index in range: both effects while no fault is recorded. -/
theorem andThen_exec_exec (i j : Instr) (s : State) (h : i.indexBelow s.cfg.ndigits) :
    andThen (exec i s) (exec j) = commandStep s fun s => j.effect (i.effect s) := by
  cases hfault : s.fault with
  | none =>
    rw [exec_running i s hfault, commandStep_running s _ hfault]
    exact exec_running j _ ((effect_fault_of_indexBelow i s h).trans hfault)
  | some r =>
    rw [exec_eq_commandStep i s, commandStep_frozen s _ r hfault, commandStep_frozen s _ r hfault]
    rfl

/-- Commands whose effects commute commute, with both indices in range. -/
theorem exec_comm (i j : Instr) (s : State) (hi : i.indexBelow s.cfg.ndigits) (hj : j.indexBelow s.cfg.ndigits)
    (h : j.effect (i.effect s) = i.effect (j.effect s)) :
    andThen (exec i s) (exec j) = andThen (exec j s) (exec i) := by
  rw [andThen_exec_exec i j s hi, andThen_exec_exec j i s hj, commandStep, commandStep, h]

/-- The three brightness commands (43_brightness.md section 2). -/
def Brightness (i : Instr) : Prop := i.mnemonic = .SETBRT ∨ i.mnemonic = .SETFLAGS ∨ i.mnemonic = .SETSEP

/-- A brightness command takes no index. -/
theorem Brightness.indexBelow {b : Instr} (hb : Brightness b) (n : Nat) : b.indexBelow n := by
  cases b with
  | setbrt | setflags | setsep => exact trivial
  | map | wrseg | wrdp | enout => simp [Brightness, Instr.mnemonic] at hb

theorem effect_wrseg_brightness (b : Instr) (hb : Brightness b) (k : Fin 16) (m : Word) (s : State)
    (hk : k.val < s.cfg.ndigits) : (Instr.wrseg k m).effect (b.effect s) = b.effect ((Instr.wrseg k m).effect s) := by
  rw [effect_wrseg_below k m s hk]
  cases b with
  | setbrt | setflags | setsep => exact effect_wrseg_below k m _ hk
  | map | wrseg | wrdp | enout => simp [Brightness, Instr.mnemonic] at hb

theorem effect_wrdp_brightness (b : Instr) (hb : Brightness b) (k : Fin 16) (v : Bool) (s : State)
    (hk : k.val < s.cfg.ndigits) : (Instr.wrdp k v).effect (b.effect s) = b.effect ((Instr.wrdp k v).effect s) := by
  rw [effect_wrdp_below k v s hk]
  cases b with
  | setbrt | setflags | setsep => exact effect_wrdp_below k v _ hk
  | map | wrseg | wrdp | enout => simp [Brightness, Instr.mnemonic] at hb

/-- Settles O21: the effects write different elements, but for the response, which all of them clear. -/
theorem brightnessCommandsCommute : Obligations.BrightnessCommandsCommute := by
  intro l am pm v s
  refine ⟨exec_comm (.setbrt l) (.setflags am pm) s trivial trivial rfl,
    exec_comm (.setbrt l) (.setsep v) s trivial trivial rfl,
    exec_comm (.setflags am pm) (.setsep v) s trivial trivial rfl, fun b k m d hb hk => ?_⟩
  have hbright : Brightness b := by
    rcases hb with rfl | rfl | rfl
    · exact .inl rfl
    · exact .inr (.inl rfl)
    · exact .inr (.inr rfl)
  exact ⟨exec_comm b (.wrseg k m) s (hbright.indexBelow _) hk (effect_wrseg_brightness b hbright k m s hk),
    exec_comm b (.wrdp k d) s (hbright.indexBelow _) hk (effect_wrdp_brightness b hbright k d s hk)⟩

end Sys2Proof.Machine
end

section
/-!
The shift procedures (41_shift_register_driver.md sections 2 and 4): while they run, only the shift stages and the
data line change, and at their end the stages hold what was shifted in.
-/

namespace Sys2Proof.Machine

/-- `t` is `s` but for the two chains' shift stages and the data line. -/
def SameButStages (s t : State) : Prop :=
  ∃ (v : Word) (a : ChainBits) (b : Bool), t = { s with segSr := v, digSr := a, dataLine := b }

theorem SameButStages.refl (s : State) : SameButStages s s := ⟨s.segSr, s.digSr, s.dataLine, rfl⟩

/-- R133. -/
theorem SameButStages.sameOutputs {s t : State} (h : SameButStages s t) : SameOutputs s t := by
  obtain ⟨v, a, b, rfl⟩ := h
  exact sameOutputs_withStages s v a b

/-- The micro-operations that the shift procedures are made of. -/
def MicroOp.Shifts (o : MicroOp) : Prop := o = .pulseSegShift ∨ o = .pulseDigShift ∨ ∃ b, o = .setData b

theorem SameButStages.microStep {s t : State} (h : SameButStages s t) (o : MicroOp) (ho : o.Shifts) :
    SameButStages s (microStep o t) := by
  obtain ⟨v, a, b, rfl⟩ := h
  rcases ho with rfl | rfl | ⟨b', rfl⟩
  · exact ⟨_, a, b, rfl⟩
  · exact ⟨v, _, b, rfl⟩
  · exact ⟨v, a, b', rfl⟩

/-- Every boundary of a shift procedure. -/
theorem sameButStages_of_mem_microTrace (os : List MicroOp) (hos : ∀ o ∈ os, o.Shifts) (s : State) :
    ∀ t ∈ microTrace os s, SameButStages s t :=
  microTrace_forall _ os s (.refl s) fun o ho _ hu => hu.microStep o (hos o ho)

theorem runMicro_mem_microTrace (os : List MicroOp) (s : State) : runMicro os s ∈ microTrace os s := by
  induction os generalizing s with
  | nil => exact List.mem_singleton_self s
  | cons o os ih => exact List.mem_cons_of_mem s (ih (microStep o s))

/-- The end of a shift procedure, from the three elements it writes. -/
theorem runMicro_of_shifts (os : List MicroOp) (hos : ∀ o ∈ os, o.Shifts) (s : State) :
    runMicro os s = { s with segSr := (runMicro os s).segSr, digSr := (runMicro os s).digSr,
                             dataLine := (runMicro os s).dataLine } := by
  obtain ⟨v, a, b, h⟩ := sameButStages_of_mem_microTrace os hos s _ (runMicro_mem_microTrace os s)
  rw [h]

theorem mem_shiftSegFrom (w : Word) (n : Nat) (o : MicroOp) (h : o ∈ shiftSegFrom w n) :
    o = .pulseSegShift ∨ ∃ b, o = .setData b := by
  induction n with
  | zero => cases h
  | succ n ih =>
    rcases List.mem_cons.mp h with rfl | h
    · exact .inr ⟨_, rfl⟩
    rcases List.mem_cons.mp h with rfl | h
    · exact .inl rfl
    · exact ih h

theorem shifts_of_mem_shiftSegWord (w : Word) : ∀ o ∈ shiftSegWord w, o.Shifts :=
  fun o ho => (mem_shiftSegFrom w 16 o ho).imp_right .inr

theorem shifts_of_mem_shiftDigitSelect (depth k : Nat) : ∀ o ∈ shiftDigitSelect depth k, o.Shifts :=
  fun o ho => .inr (mem_shiftDigitFrom k depth o ho)

/-- The last bit on the data line is the word's bit 0. -/
theorem runMicro_shiftSegFrom_dataLine (w : Word) (n : Nat) (s : State) :
    (runMicro (shiftSegFrom w (n + 1)) s).dataLine = w.getLsbD 0 := by
  induction n generalizing s with
  | zero => rfl
  | succ n ih => rw [shiftSegFrom, runMicro_cons, runMicro_cons, ih]

theorem runMicro_shiftDigitFrom_dataLine (k n : Nat) (s : State) :
    (runMicro (shiftDigitFrom k (n + 1)) s).dataLine = decide (k = 0) := by
  induction n generalizing s with
  | zero => exact Bool.decide_congr eq_comm
  | succ n ih => rw [shiftDigitFrom, runMicro_cons, runMicro_cons, ih]

/-- The whole effect of ShiftSegWord (R128). -/
theorem runMicro_shiftSegWord (w : Word) (s : State) :
    runMicro (shiftSegWord w) s = { s with segSr := w, dataLine := w.getLsbD 0 } := by
  have hdig : (runMicro (shiftSegWord w) s).digSr = s.digSr :=
    runMicro_keeps State.digSr _ (fun o ho u => by
      rcases mem_shiftSegFrom w 16 o ho with rfl | ⟨b, rfl⟩ <;> rfl) s
  rw [runMicro_of_shifts _ (shifts_of_mem_shiftSegWord w), runMicro_shiftSegWord_segSr, hdig, shiftSegWord,
    runMicro_shiftSegFrom_dataLine]

/-- Settles O42, by the effect of the whole shift and the boundaries on the way. -/
theorem segmentShiftLoadsTheWord : Obligations.SegmentShiftLoadsTheWord := fun w s =>
  ⟨runMicro_shiftSegWord w s, fun t ht =>
    (sameButStages_of_mem_microTrace _ (shifts_of_mem_shiftSegWord w) s t ht).sameOutputs⟩

/-- The last `n` pulses of ShiftDigitSelect load bit `k` alone of the low `n` stages and move the old ones up. -/
theorem runMicro_shiftDigitFrom_digSr_getLsbD (k n : Nat) (s : State) (j : Nat) (hj : j < s.cfg.digitDepth)
    (hdepth : s.cfg.digitDepth ≤ 32) : (runMicro (shiftDigitFrom k n) s).digSr.getLsbD j =
      if j < n then decide (j = k) else s.digSr.getLsbD (j - n) := by
  induction n generalizing s with
  | zero => rfl
  | succ n ih =>
    rw [shiftDigitFrom, runMicro_cons, runMicro_cons,
      ih (microStep .pulseDigShift (microStep (.setData (decide (n = k))) s)) hj hdepth]
    rcases Nat.lt_trichotomy j n with hlt | rfl | hgt
    · rw [if_pos hlt, if_pos (by omega)]
    · rw [if_neg (Nat.lt_irrefl j), if_pos (Nat.lt_succ_self j), Nat.sub_self]
      refine (digShifted_getLsbD s.cfg.digitDepth s.digSr _ 0 hdepth).trans ?_
      rw [decide_eq_true (Nat.zero_lt_of_lt hj), Bool.true_and]
      rfl
    · rw [if_neg (by omega), if_neg (by omega), show j - n = j - (n + 1) + 1 by omega]
      refine (digShifted_getLsbD s.cfg.digitDepth s.digSr _ (j - (n + 1) + 1) hdepth).trans ?_
      rw [decide_eq_true (by omega), Bool.true_and]

/-- A pulse or more leaves no bit at or above the depth. -/
theorem runMicro_shiftDigitFrom_digSr_beyond (k n : Nat) (s : State) (j : Nat) (hj : s.cfg.digitDepth ≤ j)
    (hdepth : s.cfg.digitDepth ≤ 32) : (runMicro (shiftDigitFrom k (n + 1)) s).digSr.getLsbD j = false := by
  induction n generalizing s with
  | zero =>
    refine (digShifted_getLsbD s.cfg.digitDepth s.digSr _ j hdepth).trans ?_
    rw [decide_eq_false (Nat.not_lt.mpr hj), Bool.false_and]
  | succ n ih =>
    rw [shiftDigitFrom, runMicro_cons, runMicro_cons]
    exact ih (microStep .pulseDigShift (microStep (.setData (decide (n + 1 = k))) s)) hj hdepth

/-- The depth as a successor: a chain has at least one position (00_scope.md R8). -/
theorem exists_digitDepth_eq_succ (c : Config) : ∃ n, c.digitDepth = n + 1 := by
  obtain ⟨⟨hone, -⟩, ⟨hdepth, -⟩, -⟩ := c.wf
  exact Nat.exists_eq_add_of_le' (Nat.le_trans hone hdepth)

theorem digitDepth_le (c : Config) : c.digitDepth ≤ 32 := by
  obtain ⟨-, ⟨-, hdepth⟩, -⟩ := c.wf
  exact hdepth

theorem ndigits_le_digitDepth (c : Config) : c.ndigits ≤ c.digitDepth := by
  obtain ⟨-, ⟨hdepth, -⟩, -⟩ := c.wf
  exact hdepth

theorem ndigits_pos (c : Config) : 0 < c.ndigits := by
  obtain ⟨⟨hone, -⟩, -⟩ := c.wf
  exact hone

theorem ndigits_le (c : Config) : c.ndigits ≤ 16 := by
  obtain ⟨⟨-, hmax⟩, -⟩ := c.wf
  exact hmax

theorem runMicro_shiftDigitSelect_digSr (k : Nat) (s : State) (hk : k < s.cfg.ndigits) :
    (runMicro (shiftDigitSelect s.cfg.digitDepth k) s).digSr = onehot s.cfg.digitDepth k := by
  have hdepth := digitDepth_le s.cfg
  have hkd := Nat.lt_of_lt_of_le hk (ndigits_le_digitDepth s.cfg)
  refine BitVec.eq_of_getLsbD_eq fun j _ => ?_
  rw [onehot_getLsbD _ _ _ hdepth, decide_eq_true hkd, Bool.true_and, shiftDigitSelect]
  by_cases hj : j < s.cfg.digitDepth
  · rw [runMicro_shiftDigitFrom_digSr_getLsbD k _ s j hj hdepth, if_pos hj]
  · obtain ⟨n, hn⟩ := exists_digitDepth_eq_succ s.cfg
    rw [hn, runMicro_shiftDigitFrom_digSr_beyond k n s j (Nat.le_of_not_lt hj) hdepth, eq_comm]
    exact decide_eq_false (by omega)

/-- The whole effect of ShiftDigitSelect (R129). -/
theorem runMicro_shiftDigitSelect (k : Nat) (s : State) (hk : k < s.cfg.ndigits) :
    runMicro (shiftDigitSelect s.cfg.digitDepth k) s =
      { s with digSr := onehot s.cfg.digitDepth k, dataLine := decide (k = 0) } := by
  have hseg : (runMicro (shiftDigitSelect s.cfg.digitDepth k) s).segSr = s.segSr :=
    runMicro_shiftDigitSelect_keeps State.segSr (fun _ _ => rfl) (fun _ => rfl) _ k s
  have hdata : (runMicro (shiftDigitSelect s.cfg.digitDepth k) s).dataLine = decide (k = 0) := by
    obtain ⟨n, hn⟩ := exists_digitDepth_eq_succ s.cfg
    rw [hn, shiftDigitSelect, runMicro_shiftDigitFrom_dataLine]
  rw [runMicro_of_shifts _ (shifts_of_mem_shiftDigitSelect _ k), runMicro_shiftDigitSelect_digSr k s hk, hseg, hdata]

/-- Settles O43, by the effect of the whole shift and the boundaries on the way. -/
theorem digitShiftLoadsTheOneHot : Obligations.DigitShiftLoadsTheOneHot := fun k s hk =>
  ⟨runMicro_shiftDigitSelect k s hk, fun t ht =>
    (sameButStages_of_mem_microTrace _ (shifts_of_mem_shiftDigitSelect _ k) s t ht).sameOutputs⟩

/-- Cutting to the depth is reduction modulo `2 ^ depth` (R124). -/
theorem digShifted_toNat (depth : Nat) (hdepth : depth ≤ 32) (v : ChainBits) (b : Bool) :
    (digShifted depth v b).toNat = (2 * v.toNat + b.toNat) % 2 ^ depth := by
  refine Nat.eq_of_testBit_eq fun j => ?_
  rw [Nat.testBit_mod_two_pow, ← BitVec.getLsbD, digShifted_getLsbD depth v b j hdepth]
  congr 1
  cases j with
  | zero => cases b <;> simp
  | succ i =>
    have hhalf : (2 * v.toNat + b.toNat) / 2 = v.toNat := by
      have := b.toNat_le
      omega
    rw [Nat.testBit_succ, hhalf]
    rfl

/-- Settles O40, by reading the shifted stages bit by bit. -/
theorem digitPulseMovesEachStage : Obligations.DigitPulseMovesEachStage := by
  intro s
  have hdepth := digitDepth_le s.cfg
  have hbit := fun j => digShifted_getLsbD s.cfg.digitDepth s.digSr s.dataLine j hdepth
  refine ⟨_, microStep_pulseDigShift s, digShifted_toNat _ hdepth _ _, ?_, fun j hj => ?_, fun j hj => ?_⟩
  · obtain ⟨n, hn⟩ := exists_digitDepth_eq_succ s.cfg
    rw [hbit 0, decide_eq_true (hn ▸ Nat.succ_pos n), Bool.true_and]
  · rw [hbit (j + 1), decide_eq_true hj, Bool.true_and]
  · rw [hbit j, decide_eq_false (Nat.not_lt.mpr hj), Bool.false_and]

theorem count_shiftSegFrom (o : MicroOp) (w : Word) (n : Nat) (ho : ∀ b, o ≠ .setData b) :
    (shiftSegFrom w n).count o = if o = .pulseSegShift then n else 0 := by
  induction n with
  | zero => simp [shiftSegFrom]
  | succ n ih =>
    rw [shiftSegFrom, List.count_cons_of_ne (ho _).symm, List.count_cons, ih]
    by_cases h : o = .pulseSegShift
    · simp [h]
    · simp [h, Ne.symm h]

theorem count_shiftDigitFrom (o : MicroOp) (k n : Nat) (ho : ∀ b, o ≠ .setData b) :
    (shiftDigitFrom k n).count o = if o = .pulseDigShift then n else 0 := by
  induction n with
  | zero => simp [shiftDigitFrom]
  | succ n ih =>
    rw [shiftDigitFrom, List.count_cons_of_ne (ho _).symm, List.count_cons, ih]
    by_cases h : o = .pulseDigShift
    · simp [h]
    · simp [h, Ne.symm h]

/-- Settles O44: the clocks of the two shift procedures and the list's own stores. -/
theorem scanPulsesTheFullDepth : Obligations.ScanPulsesTheFullDepth := by
  intro depth sn
  simp [scanOps, shiftSegWord, shiftDigitSelect, count_shiftSegFrom, count_shiftDigitFrom, List.count_append]

/-- Settles O38: each micro-operation is its record update, and the outputs read the line only under its digit. -/
theorem microOperationsWriteTheirElement : Obligations.MicroOperationsWriteTheirElement := by
  intro b s
  refine ⟨rfl, sameOutputs_withStages s s.segSr s.digSr b, rfl, rfl, rfl, fun p => ?_⟩
  have hon : digitOn (microStep (.setDP b) s) p = digitOn s p := rfl
  rw [dpLit, hon, microStep_setDP, Bool.and_eq_true, Bool.not_eq_true']

end Sys2Proof.Machine
end

section
/-!
The steps of the agents (00_scope.md R9): the turn a step takes, the Host's words through the decoder, a faulted
state, the tick, Reset and power-up.
-/

namespace Sys2Proof.Machine

theorem step_cons (s : State) (u : Turn) (rest : List Turn) (h : s.schedule = u :: rest) :
    step s = turnStep u { s with schedule := rest } := by
  rw [step, h]

theorem core_run_succ (M : Host.Core) (n : Nat) (s t : M.State) (h : M.step s = .next t) :
    M.run (n + 1) s = M.run n t := by
  rw [Host.Core.run, h]

theorem run_succ (n : Nat) (s t : State) (h : step s = .next t) : run (n + 1) s = run n t :=
  core_run_succ Sys2Proof.core n s t h

/-- A run takes the scheduled turns in order. -/
theorem run_succ_cons (n : Nat) (s t : State) (u : Turn) (rest : List Turn)
    (h : turnStep u { s with schedule := rest } = .next t) : run (n + 1) { s with schedule := u :: rest } = run n t :=
  run_succ n _ t ((step_cons { s with schedule := u :: rest } u rest rfl).trans h)

/-- Decoding answers a command or the word itself as illegal (30_encoding.md R75). -/
theorem decode_cases (w : CommandWord) : (∃ i, decode w = .command i) ∨ decode w = .illegal w := by
  by_cases h : ∃ o : Mnemonic, o.row.matchesWord w = true
  · obtain ⟨o, ho⟩ := h
    exact .inl ⟨_, decode_of_matches w o ho⟩
  · exact .inr (decode_of_no_match w fun o => Bool.eq_false_iff.mpr fun ho => h ⟨o, ho⟩)

theorem commandTurn_of_command (w : CommandWord) (i : Instr) (s : State) (h : decode w = .command i) :
    commandTurn w s = exec i s := by
  rw [commandTurn, h]

/-- An illegal word records itself (30_encoding.md R77, 60_exceptions.md R181). -/
theorem commandTurn_of_illegal (w : CommandWord) (s : State) (h : decode w = .illegal w) (hfault : s.fault = none) :
    commandTurn w s = .next (raiseFault (.illegalCommand w) s) := by
  rw [commandTurn, h]
  exact commandStep_running s _ hfault

/-- Settles O5: no row has the opcode, so the word is illegal and records itself. -/
theorem unassignedOpcodesRaiseIllegalCommand : Obligations.UnassignedOpcodesRaiseIllegalCommand := by
  intro w s hop hfault
  have hillegal := decode_of_unassigned_opcode w hop
  exact ⟨hillegal, commandTurn_of_illegal w s hillegal hfault⟩

theorem turnStep_command (w : CommandWord) (s : State) (h : s.fault = none) :
    turnStep (.command w) s = commandTurn w s :=
  turnStep_enabled (.command w) s (by rw [Turn.enabled, State.frozen, h]; rfl)

theorem turnStep_tick (s : State) (h : s.fault = none) : turnStep .tick s = .next (tickStep s) :=
  turnStep_enabled .tick s (by rw [Turn.enabled, State.frozen, h]; rfl)

theorem turnStep_scan (s : State) (h : s.scanEnabled = true) : turnStep .scan s = scanStep s :=
  turnStep_enabled .scan s h

theorem turnStep_reset (s : State) : turnStep .reset s = .next (resetStep s) := turnStep_enabled .reset s rfl

/-- R141. -/
theorem scanEnabled_iff (s : State) : s.scanEnabled = true ↔ s.tickPending = true ∧ s.fault = none := by
  simp [State.scanEnabled, State.frozen]

theorem scanEnabled_of_no_tick (s : State) (h : s.tickPending = false) : s.scanEnabled = false := by
  rw [State.scanEnabled, h, Bool.false_and]

/-- Settles O25: the turn is the Host's, and its word the illegal one. -/
theorem illegalWordIsRecorded : Obligations.IllegalWordIsRecorded := by
  intro w rest s hfault hschedule hword
  have hillegal : decode w = .illegal w := (decode_cases w).resolve_left fun ⟨i, hi⟩ => hword i hi
  rw [step_cons s _ rest hschedule, turnStep_command w { s with schedule := rest } hfault]
  exact commandTurn_of_illegal w { s with schedule := rest } hillegal hfault

theorem decodeTableWord_eq_some (nbits w : Nat) (i : Instr) (h : decodeTableWord nbits w = some i) :
    decode (BitVec.ofNat 32 (w % 2 ^ nbits)) = .command i := by
  unfold decodeTableWord at h
  split at h
  · split at h
    · next j hj => rw [hj, Option.some.inj h]
    · cases h
  · cases h

theorem step_of_command (w : CommandWord) (i : Instr) (rest : List Turn) (s : State) (hfault : s.fault = none)
    (hschedule : s.schedule = .command w :: rest) (hdecode : decode w = .command i) :
    step s = exec i { s with schedule := rest } := by
  rw [step_cons s _ rest hschedule, turnStep_command w { s with schedule := rest } hfault,
    commandTurn_of_command w i _ hdecode]

/-- Settles O36: the placed word is the first turn of the schedule, and the Host's. -/
theorem stepRunsTheDecodedCommand : Obligations.StepRunsTheDecodedCommand :=
  ⟨step_of_command, fun nbits w i s hfault h =>
    step_of_command _ i s.schedule (s.withFetchWord nbits w) hfault rfl (decodeTableWord_eq_some nbits w i h)⟩

/-- In a faulted state only Reset is enabled (60_exceptions.md R182). -/
theorem enabled_of_faulted (u : Turn) (s : State) (hfault : s.fault ≠ none) (hu : u ≠ .reset) :
    u.enabled s = false := by
  have hfrozen : s.frozen = true := Option.isSome_iff_ne_none.mpr hfault
  cases u with
  | reset => exact absurd rfl hu
  | command | tick => exact congrArg not hfrozen
  | scan => simp [Turn.enabled, State.scanEnabled, hfrozen]

/-- With an empty schedule the turn taken is the Scanner's, in the same state. -/
theorem step_of_empty_schedule (s : State) (h : s.schedule = []) : step s = turnStep .scan s := by
  rw [step, h, idleStep]

/-- Settles O27: the turn is disabled, and so is the Scanner's when none is scheduled. -/
theorem faultedStateIsFrozen : Obligations.FaultedStateIsFrozen := by
  intro u rest s hfault hu
  refine ⟨fun h => ?_, fun h => ?_⟩
  · rw [step_cons s u rest h]
    exact turnStep_disabled u _ (enabled_of_faulted u { s with schedule := rest } hfault hu)
  · rw [step_of_empty_schedule s h]
    exact turnStep_disabled .scan s (enabled_of_faulted .scan s hfault (by decide))

/-- A turn taken that is not the Scanner's own is scheduled. -/
theorem head?_of_headD (l : List Turn) (u : Turn) (hu : u ≠ .scan) (h : l.headD .scan = u) : l.head? = some u := by
  cases l with
  | nil => exact absurd h.symm hu
  | cons v rest => exact congrArg some h

/-- Settles O28: in a faulted state a turn other than Reset's is disabled, and Reset clears the record. -/
theorem onlyResetClearsAFault : Obligations.OnlyResetClearsAFault := by
  intro s t hfault hstep hne
  rw [step_eq_turnStep] at hstep
  by_cases hu : s.schedule.headD .scan = .reset
  · rw [hu, turnStep_reset] at hstep
    cases hstep
    exact ⟨head?_of_headD s.schedule .reset Turn.noConfusion hu, rfl⟩
  · rw [turnStep_disabled _ _ (enabled_of_faulted _ { s with schedule := s.schedule.tail } hfault hu)] at hstep
    cases hstep
    exact absurd rfl hne

/-- Settles O46: the Scanner's turn is disabled. -/
theorem noTickNoScan : Obligations.NoTickNoScan := by
  intro rest s htick hschedule
  rw [step_cons s _ rest hschedule]
  exact turnStep_disabled .scan _ (scanEnabled_of_no_tick { s with schedule := rest } htick)

/-- Settles O45, by induction on the number of ticks. -/
theorem ticksCollapseIntoOneFlag : Obligations.TicksCollapseIntoOneFlag := by
  intro n
  induction n with
  | zero =>
    intro rest s hfault hschedule
    have hstep := (step_cons s .tick rest hschedule).trans (turnStep_tick { s with schedule := rest } hfault)
    exact run_succ 0 s _ hstep
  | succ n ih =>
    intro rest s hfault hschedule
    have hstep := (step_cons s .tick _ hschedule).trans (turnStep_tick _ hfault)
    rw [run_succ (n + 1) s _ hstep]
    exact ih rest (tickStep { s with schedule := List.replicate (n + 1) .tick ++ rest }) hfault rfl

-- ## Reset and power-up

theorem chainsFit_afterReset (c : Config) (d : ResetDraw) (schedule : List Turn) (n : Nat) :
    (State.afterReset c d schedule n).ChainsFit :=
  ⟨and_lowMask_lt _ (digitDepth_le c) _, and_lowMask_lt _ (digitDepth_le c) _⟩

/-- Settles O29: the step is Reset's, and its state the one after Reset. -/
theorem resetSetsEveryStatedValue : Obligations.ResetSetsEveryStatedValue := by
  intro rest s hschedule
  exact ⟨_, (step_cons s .reset rest hschedule).trans (turnStep_reset _), rfl, rfl, rfl, rfl, rfl, rfl, rfl, rfl, rfl,
    rfl, rfl, rfl, rfl, rfl, rfl, rfl, chainsFit_afterReset _ _ _ _, rfl, rfl⟩

/-- Settles O30: the output and channel enables are off. -/
theorem nothingIsAssertedAfterReset : Obligations.NothingIsAssertedAfterReset := by
  intro c d schedule n p b ch
  refine ⟨by simp [digitOn], rfl, by simp [dpLit, digitOn], ?_⟩
  cases ch <;> rfl

theorem inv_afterReset (c : Config) (d : ResetDraw) (schedule : List Turn) (n : Nat) :
    (State.afterReset c d schedule n).Inv :=
  ⟨Memory.wf_afterReset c d schedule n, ndigits_pos c, chainsFit_afterReset c d schedule n, (fun h => nomatch h),
    ⟨rfl, rfl, .inl ⟨rfl, rfl⟩⟩, rfl, (fun _ h => nomatch h)⟩

/-- Settles O31; the model's reset state is one of the states after Reset. -/
theorem resetStateHasTheInvariant : Obligations.ResetStateHasTheInvariant :=
  ⟨inv_afterReset _ _ _ _, inv_afterReset⟩

/-- The configuration fails this check (00_scope.md R8). -/
def ConfigCheck.FailsOn (p : Params) : ConfigCheck → Prop
  | .ndigitsRange => ¬ p.ndigitsRange
  | .depthRange => ¬ p.depthRange
  | .permBijective => ¬ p.permBijective
  | .tableStrict => ¬ p.tableStrict

/-- The check that a refusal names is one that fails. -/
theorem firstFailing_failsOn (p : Params) (h : ¬ p.wf) : ConfigCheck.FailsOn p p.firstFailing := by
  rw [Params.firstFailing]
  split_ifs with hdigits hdepth hperm
  · exact fun htable => h ⟨hdigits, hdepth, hperm, htable⟩
  · exact hperm
  · exact hdepth
  · exact hdigits

/-- Settles O32, by the two branches of power-up. -/
theorem illFormedConfigurationIsRefused : Obligations.IllFormedConfigurationIsRefused := fun p _ =>
  ⟨fun h => ⟨_, dif_pos h, rfl⟩, fun h => ⟨p.firstFailing, dif_neg h, firstFailing_failsOn p h⟩⟩

end Sys2Proof.Machine
end

section
/-!
The end state of a SCAN (42_scan_controller.md R144) as a function of the state, and what it gives: the invariant of
every step, SCAN beside the brightness commands, and SCAN under the output enables.
-/

namespace Sys2Proof.Machine

/-- The state a SCAN ends in (R144), for a digit with a slot. -/
def afterScan (s : State) : State :=
  let w := (bufRead s s.idx).getD 0xFFFF#16
  { s with
    tickPending := false, segSr := w, segLatch := w,
    digSr := onehot s.cfg.digitDepth s.idx, digLatch := onehot s.cfg.digitDepth s.idx,
    dataLine := decide (s.idx = 0), sinkEn := true, dpLineN := !dpRead s s.idx,
    idx := (s.idx + 1) % s.cfg.ndigits }

/-- The state after R142 steps 1 to 8, from the whole effects of the two shift procedures. -/
theorem driven_eq (sn : Snapshot) (s : State) (hk : sn.k < s.cfg.ndigits) :
    driven sn s = { s with
      tickPending := false, segSr := sn.w, segLatch := sn.w,
      digSr := onehot s.cfg.digitDepth sn.k, digLatch := onehot s.cfg.digitDepth sn.k,
      dataLine := decide (sn.k = 0), sinkEn := true, dpLineN := dpLevel sn.d } := by
  have hselect := runMicro_shiftDigitSelect sn.k
    (microStep (.setDP (dpLevel sn.d)) (microStep (.setSink false) (runMicro (shiftSegWord sn.w) (acknowledge s))))
  rw [runMicro_shiftSegWord] at hselect
  rw [driven, scanOps, runMicro_append, runMicro_append, runMicro_shiftSegWord, runMicro_cons, runMicro_cons]
  exact congrArg (runMicro [.pulseSegStore, .pulseDigStore, .setSink true]) (hselect hk)

/-- The snapshot of a digit with a slot. -/
theorem takeSnapshot_of_slot (s : State) (hslot : s.idx < s.buf.length) :
    takeSnapshot s = some ⟨s.idx, (bufRead s s.idx).getD 0xFFFF#16, dpRead s s.idx⟩ := by
  have hread : bufRead s s.idx = some s.buf[s.idx] := List.getElem?_eq_getElem hslot
  rw [takeSnapshot, hread]
  rfl

theorem scanStep_of_slot (s : State) (hslot : s.idx < s.buf.length) (hidx : s.idx < s.cfg.ndigits) :
    scanStep s = .next (afterScan s) := by
  refine (scanStep_next_iff s _).mpr ⟨_, takeSnapshot_of_slot s hslot, ?_⟩
  rw [driven_eq _ s hidx]
  rfl

/-- With the invariant the digit to be scanned has a slot. -/
theorem idx_lt_length_of_inv (s : State) (h : s.Inv) : s.idx < s.buf.length := by
  obtain ⟨⟨hlen, -⟩, hidx, -⟩ := h
  exact hlen ▸ hidx

theorem idx_lt_ndigits_of_inv (s : State) (h : s.Inv) : s.idx < s.cfg.ndigits := by
  obtain ⟨-, hidx, -⟩ := h
  exact hidx

theorem scanStep_of_inv (s : State) (h : s.Inv) : scanStep s = .next (afterScan s) :=
  scanStep_of_slot s (idx_lt_length_of_inv s h) (idx_lt_ndigits_of_inv s h)

/-- Settles O47: the turn is the Scanner's, and its step the whole SCAN. -/
theorem scanEndState : Obligations.ScanEndState := by
  intro rest s hinv htick hfault hschedule
  obtain ⟨w, hw⟩ := bufRead_idx_of_inv s hinv
  have hscan := scanStep_of_inv { s with schedule := rest } hinv
  refine ⟨w, hw, ?_⟩
  rw [step_cons s .scan rest hschedule,
    turnStep_scan { s with schedule := rest } ((scanEnabled_iff _).mpr ⟨htick, hfault⟩), hscan, afterScan]
  simp only [show bufRead { s with schedule := rest } s.idx = some w from hw, Option.getD_some]
  rfl

-- ## The invariant

/-- The last digit of the advanced index is the digit just scanned (R150). -/
theorem add_one_mod_sub_one_mod (i n : Nat) (h : i < n) : ((i + 1) % n + n - 1) % n = i := by
  rcases Nat.lt_or_eq_of_le (Nat.succ_le_of_lt h) with hlt | rfl
  · rw [Nat.mod_eq_of_lt hlt, show i + 1 + n - 1 = i + n by omega, Nat.add_mod_right, Nat.mod_eq_of_lt h]
  · rw [Nat.mod_self, Nat.mod_eq_of_lt (by omega)]
    omega

theorem lastDigit_afterScan (s : State) (h : s.idx < s.cfg.ndigits) : lastDigit (afterScan s) = s.idx :=
  add_one_mod_sub_one_mod s.idx s.cfg.ndigits h

theorem inv_afterScan (s : State) (h : s.Inv) : (afterScan s).Inv := by
  obtain ⟨hbuf, hidx, -, -, hchannels, hoe, hrecorded⟩ := h
  have hdepth := digitDepth_le s.cfg
  refine ⟨hbuf, Nat.mod_lt _ (ndigits_pos s.cfg), ⟨onehot_lt _ _ hdepth, onehot_lt _ _ hdepth⟩, fun _ => ?_, hchannels,
    hoe, hrecorded⟩
  rw [lastDigit_afterScan s hidx]
  rfl

theorem inv_raiseFault (r : FaultRecord) (s : State) (h : s.Inv) (hr : r.valid s.cfg = true) :
    (raiseFault r s).Inv := by
  obtain ⟨hbuf, hidx, hfit, hsink, hchannels, hoe, -⟩ := h
  refine ⟨hbuf, hidx, hfit, hsink, hchannels, hoe, fun r' hr' => ?_⟩
  obtain rfl : r = r' := Option.some.inj hr'
  exact ⟨hr, rfl⟩

/-- Nothing is recorded, so nothing is to be said of the record. -/
theorem faultRecorded_of_none (s : State) (h : s.fault = none) : s.FaultRecorded :=
  fun r hr => absurd (h ▸ hr) (Option.not_mem_none r)

/-- The entry that SETBRT writes is one of the table's. -/
theorem channelsAgree_setbrt (l : BitVec 8) (s : State) : ((Instr.setbrt l).effect s).ChannelsAgree :=
  ⟨rfl, rfl, .inr ⟨rfl, clampLevel l, rfl⟩⟩

theorem inv_effect (i : Instr) (s : State) (h : s.Inv) (hfault : s.fault = none) : (i.effect s).Inv := by
  by_cases hk : i.indexBelow s.cfg.ndigits
  · obtain ⟨hbuf, hidx, hfit, hsink, hchannels, hoe, -⟩ := h
    have hrecorded := faultRecorded_of_none _ ((effect_fault_of_indexBelow i s hk).trans hfault)
    cases i with
    | wrseg k m =>
      rw [effect_wrseg_below k m s hk] at hrecorded ⊢
      exact ⟨Memory.wf_bufWrite s.cfg s k.val _ hbuf, hidx, hfit, hsink, hchannels, hoe, hrecorded⟩
    | wrdp k v =>
      rw [effect_wrdp_below k v s hk] at hrecorded ⊢
      exact ⟨Memory.wf_dpWrite s.cfg s k.val v hk hbuf, hidx, hfit, hsink, hchannels, hoe, hrecorded⟩
    | setbrt l => exact ⟨hbuf, hidx, hfit, hsink, channelsAgree_setbrt l s, hoe, hrecorded⟩
    | enout => exact ⟨hbuf, hidx, hfit, hsink, hchannels, rfl, hrecorded⟩
    | map | setflags | setsep => exact ⟨hbuf, hidx, hfit, hsink, hchannels, hoe, hrecorded⟩
  · obtain ⟨k, hbeyond, hop, heffect⟩ := effect_of_not_indexBelow i s hk
    rw [heffect]
    refine inv_raiseFault _ s h ?_
    rcases hop with hop | hop <;> simp [FaultRecord.valid, hbeyond, hop]

/-- Every turn keeps the invariant. -/
theorem turnStep_keeps_inv (u : Turn) (s t : State) (h : s.Inv) (hstep : turnStep u s = .next t) : t.Inv := by
  rcases turnStep_next_cases u s t hstep with ⟨-, rfl⟩ | ⟨w, i, -, hfault, -, hexec⟩ | ⟨w, -, -, hillegal, rfl⟩ |
    ⟨-, -, rfl⟩ | ⟨-, -, hscan⟩ | ⟨-, rfl⟩
  · exact h
  · obtain ⟨-, rfl⟩ := (exec_next_iff i s t).mp hexec
    exact inv_effect i s h hfault
  · exact inv_raiseFault _ s h (beq_iff_eq.mpr hillegal)
  · exact h
  · rw [scanStep_of_inv s h] at hscan
    cases hscan
    exact inv_afterScan s h
  · exact inv_afterReset _ _ _ _

/-- The invariant does not read the schedule. -/
theorem inv_withSchedule (s : State) (h : s.Inv) (l : List Turn) : ({ s with schedule := l } : State).Inv := h

/-- Settles O33, by the turn that the step takes. -/
theorem stepKeepsTheInvariant : Obligations.StepKeepsTheInvariant := by
  intro s t h hstep
  rw [step_eq_turnStep] at hstep
  exact turnStep_keeps_inv _ _ t (inv_withSchedule s h _) hstep

/-- An enabled turn answers a next state, for SCAN by the invariant. -/
theorem turnStep_completes (u : Turn) (s : State) (h : s.Inv) : ∃ t, turnStep u s = .next t := by
  by_cases henabled : u.enabled s = true
  · cases u with
    | command w =>
      have hfault : s.fault = none := by simpa [Turn.enabled, State.frozen] using henabled
      rw [turnStep_command w s hfault]
      rcases decode_cases w with ⟨i, hi⟩ | hillegal
      · exact ⟨_, (commandTurn_of_command w i s hi).trans (exec_running i s hfault)⟩
      · exact ⟨_, commandTurn_of_illegal w s hillegal hfault⟩
    | tick => exact ⟨_, turnStep_enabled .tick s henabled⟩
    | scan => exact ⟨_, (turnStep_scan s henabled).trans (scanStep_of_inv s h)⟩
    | reset => exact ⟨_, turnStep_reset s⟩
  · exact ⟨s, turnStep_disabled u s (Bool.eq_false_iff.mpr henabled)⟩

/-- Settles O34. -/
theorem everyStepFromTheInvariantCompletes : Obligations.EveryStepFromTheInvariantCompletes := by
  intro s h
  rw [step_eq_turnStep]
  exact turnStep_completes _ _ (inv_withSchedule s h _)

theorem effect_cfg (i : Instr) (s : State) : (i.effect s).cfg = s.cfg := by
  cases i with
  | wrseg | wrdp =>
    simp only [Instr.effect, withIndex]
    split <;> rfl
  | map | setbrt | setflags | setsep | enout => rfl

theorem scanStep_cfg (s t : State) (h : scanStep s = .next t) : t.cfg = s.cfg := by
  obtain ⟨sn, -, rfl⟩ := (scanStep_next_iff s t).mp h
  exact runMicro_cfg _ _

theorem turnStep_cfg (u : Turn) (s t : State) (hstep : turnStep u s = .next t) : t.cfg = s.cfg := by
  rcases turnStep_next_cases u s t hstep with ⟨-, rfl⟩ | ⟨w, i, -, hfault, -, hexec⟩ | ⟨w, -, -, -, rfl⟩ |
    ⟨-, -, rfl⟩ | ⟨-, -, hscan⟩ | ⟨-, rfl⟩
  · rfl
  · obtain ⟨-, rfl⟩ := (exec_next_iff i s t).mp hexec
    exact effect_cfg i s
  · rfl
  · rfl
  · exact scanStep_cfg s t hscan
  · rfl

/-- Settles O35, by the turn that the step takes. -/
theorem stepKeepsTheConfiguration : Obligations.StepKeepsTheConfiguration := by
  intro s t hstep
  rw [step_eq_turnStep] at hstep
  exact turnStep_cfg _ { s with schedule := s.schedule.tail } t hstep

-- ## SCAN beside the commands

theorem afterScan_effect_brightness (b : Instr) (hb : Brightness b) (s : State) :
    afterScan (b.effect s) = b.effect (afterScan s) := by
  cases b with
  | setbrt | setflags | setsep => rfl
  | map | wrseg | wrdp | enout => simp [Brightness, Instr.mnemonic] at hb

/-- Settles O22: both orders end in the brightness command's effect on the scanned state. -/
theorem brightnessCommutesWithScan : Obligations.BrightnessCommutesWithScan := by
  intro b s hb hfault hinv
  refine ⟨b.effect (afterScan s), ?_, ?_⟩
  · rw [exec_running b s hfault, ← afterScan_effect_brightness b hb s]
    exact scanStep_of_inv _ (inv_effect b s hinv hfault)
  · rw [scanStep_of_inv s hinv]
    exact exec_running b (afterScan s) hfault

theorem onehot_getLsbD_iff (c : Config) (k p : Nat) (hk : k < c.ndigits) :
    (onehot c.digitDepth k).getLsbD p = true ↔ p = k := by
  have hkd : k < c.digitDepth := Nat.lt_of_lt_of_le hk (ndigits_le_digitDepth c)
  rw [onehot_getLsbD _ _ _ (digitDepth_le c), decide_eq_true hkd, Bool.true_and, decide_eq_true_iff]

/-- With the digit bank and the sink on, a one-hot latch turns on its digit and no other (R131). -/
theorem digitOn_iff_of_onehot (s : State) (k p : Nat) (hk : k < s.cfg.ndigits) (hoe : s.oeDig = true)
    (hsink : s.sinkEn = true) (hlatch : s.digLatch = onehot s.cfg.digitDepth k) : digitOn s p = true ↔ p = k := by
  rw [digitOn, hoe, hsink, hlatch, Bool.and_true, Bool.and_true, Bool.and_eq_true, onehot_getLsbD_iff s.cfg k p hk,
    decide_eq_true_iff]
  exact ⟨And.right, fun h => ⟨h ▸ hk, h⟩⟩

/-- Settles O56: a SCAN neither reads nor writes the enables, and ENOUT sets them. -/
theorem scanIgnoresTheOutputEnables : Obligations.ScanIgnoresTheOutputEnables := by
  intro a b s hinv hfault
  have hslot := idx_lt_length_of_inv s hinv
  have hidx := idx_lt_ndigits_of_inv s hinv
  refine ⟨afterScan s, scanStep_of_inv s hinv, scanStep_of_slot { s with oeDig := a, oeSeg := b } hslot hidx,
    fun p => by simp [digitOn], fun l => rfl, _, exec_running .enout (afterScan s) hfault, fun p => ?_, fun l => ?_⟩
  · exact digitOn_iff_of_onehot (Instr.enout.effect (afterScan s)) s.idx p hidx rfl rfl rfl
  · exact Bool.true_and _

end Sys2Proof.Machine
end

section
/-!
The instants of a SCAN (42_scan_controller.md R147) in three parts: the old digit still shown, no digit, and the new
snapshot shown. From them, that at most one digit is on (R149) and that no frame is a ghost (R150, R151).
-/

namespace Sys2Proof.Machine

/-- The boundaries of a run cut at a micro-operation: those before it, and those from its end on. -/
theorem microTrace_append_cons (a b : List MicroOp) (o : MicroOp) (s : State) :
    microTrace (a ++ o :: b) s = microTrace a s ++ microTrace b (microStep o (runMicro a s)) := by
  induction a generalizing s with
  | nil => rfl
  | cons o' a ih => exact congrArg (s :: ·) (ih (microStep o' s))

/-- R142 steps 5 to 7: what is done with the sink off. -/
def darkOps (depth : Nat) (sn : Snapshot) : List MicroOp :=
  .setDP (dpLevel sn.d) :: shiftDigitSelect depth sn.k ++ [.pulseSegStore, .pulseDigStore]

/-- The two sink operations cut a SCAN in three. -/
theorem scanOps_eq (depth : Nat) (sn : Snapshot) :
    scanOps depth sn = shiftSegWord sn.w ++ .setSink false :: (darkOps depth sn ++ .setSink true :: []) := by
  simp only [scanOps, darkOps, List.append_assoc, List.cons_append, List.nil_append]

/-- The first boundary with the sink off. -/
def darkened (sn : Snapshot) (s : State) : State :=
  microStep (.setSink false) (runMicro (shiftSegWord sn.w) (acknowledge s))

/-- The boundaries of a SCAN, cut at its two sink operations. -/
theorem microTrace_scanOps (sn : Snapshot) (s : State) :
    microTrace (scanOps s.cfg.digitDepth sn) (acknowledge s) =
      microTrace (shiftSegWord sn.w) (acknowledge s) ++
        (microTrace (darkOps s.cfg.digitDepth sn) (darkened sn s) ++ [driven sn s]) := by
  have hend : driven sn s = microStep (.setSink true) (runMicro (darkOps s.cfg.digitDepth sn) (darkened sn s)) := by
    rw [driven, scanOps_eq, runMicro_append, runMicro_cons, runMicro_append]
    rfl
  rw [scanOps_eq, microTrace_append_cons, microTrace_append_cons, hend]
  rfl

theorem setSink_not_mem_darkOps (depth : Nat) (sn : Snapshot) : ∀ o ∈ darkOps depth sn, ∀ b, o ≠ .setSink b := by
  intro o ho b
  rcases List.mem_append.mp ho with hselect | hstore
  · rcases List.mem_cons.mp hselect with rfl | hshift
    · exact MicroOp.noConfusion
    · rcases mem_shiftDigitFrom sn.k depth o hshift with rfl | ⟨b', rfl⟩ <;> exact MicroOp.noConfusion
  · rcases List.mem_pair.mp hstore with rfl | rfl <;> exact MicroOp.noConfusion

theorem microStep_sinkEn (o : MicroOp) (s : State) (h : ∀ b, o ≠ .setSink b) : (microStep o s).sinkEn = s.sinkEn := by
  cases o with
  | setSink b => exact absurd rfl (h b)
  | setData | pulseSegShift | pulseSegStore | pulseDigShift | pulseDigStore | setDP => rfl

theorem sinkEn_of_mem_dark (sn : Snapshot) (s t : State)
    (ht : t ∈ microTrace (darkOps s.cfg.digitDepth sn) (darkened sn s)) : t.sinkEn = false := by
  refine microTrace_forall (fun u => u.sinkEn = false) _ (darkened sn s) rfl (fun o ho u hu => ?_) t ht
  rw [microStep_sinkEn o u (setSink_not_mem_darkOps _ sn o ho), hu]

/-- The elements that the output functions read, but for the enables (R131). -/
structure SameDisplay (s t : State) : Prop where
  /-- The digit sink. -/
  sinkEn : t.sinkEn = s.sinkEn
  /-- The digit latch. -/
  digLatch : t.digLatch = s.digLatch
  /-- The segment latch. -/
  segLatch : t.segLatch = s.segLatch
  /-- The decimal-point line. -/
  dpLineN : t.dpLineN = s.dpLineN

/-- An instant of the first part: the segment word is being shifted in behind the old digit. -/
theorem sameDisplay_of_mem_before (sn : Snapshot) (s t : State)
    (ht : t ∈ s :: microTrace (shiftSegWord sn.w) (acknowledge s)) : SameDisplay s t := by
  rcases List.mem_cons.mp ht with rfl | ht
  · exact ⟨rfl, rfl, rfl, rfl⟩
  · obtain ⟨v, a, b, rfl⟩ := sameButStages_of_mem_microTrace _ (shifts_of_mem_shiftSegWord sn.w) _ t ht
    exact ⟨rfl, rfl, rfl, rfl⟩

/-- R147's instants in their three parts. -/
theorem scanInstants_eq (s : State) (sn : Snapshot) (h : takeSnapshot s = some sn) :
    scanInstants s = (s :: microTrace (shiftSegWord sn.w) (acknowledge s)) ++
      microTrace (darkOps s.cfg.digitDepth sn) (darkened sn s) ++ [driven sn s, advanceIndex sn.k (driven sn s)] := by
  rw [scanInstants, h]
  simp only [microTrace_scanOps, List.cons_append, List.append_assoc, List.nil_append]

theorem shows_driven (sn : Snapshot) (s : State) (hk : sn.k < s.cfg.ndigits) :
    (driven sn s).sinkEn = true ∧ Shows (driven sn s) sn := by
  rw [driven_eq sn s hk]
  exact ⟨rfl, rfl, rfl, rfl⟩

theorem shows_of_mem_after (sn : Snapshot) (s t : State) (hk : sn.k < s.cfg.ndigits)
    (ht : t ∈ [driven sn s, advanceIndex sn.k (driven sn s)]) : t.sinkEn = true ∧ Shows t sn := by
  have hshows := shows_driven sn s hk
  rcases List.mem_pair.mp ht with rfl | rfl
  · exact hshows
  · exact hshows

theorem digitOn_of_sink_off (s : State) (p : Nat) (h : s.sinkEn = false) : digitOn s p = false := by
  simp [digitOn, h]

/-- A digit that is on has the sink on and its bit latched. -/
theorem sink_and_latch_of_digitOn (s : State) (p : Nat) (h : digitOn s p = true) :
    s.sinkEn = true ∧ s.digLatch.getLsbD p = true := by
  simp only [digitOn, Bool.and_eq_true] at h
  obtain ⟨⟨-, hsink⟩, hlatch⟩ := h
  exact ⟨hsink, hlatch⟩

/-- A latch that is one-hot while the sink is on turns on one digit at most. -/
theorem digitOn_unique (c : Config) (k : Nat) (hk : k < c.ndigits) (t : State)
    (hlatch : t.sinkEn = true → t.digLatch = onehot c.digitDepth k) (p q : Nat) (hp : digitOn t p = true)
    (hq : digitOn t q = true) : p = q := by
  obtain ⟨hsink, hp⟩ := sink_and_latch_of_digitOn t p hp
  obtain ⟨-, hq⟩ := sink_and_latch_of_digitOn t q hq
  rw [hlatch hsink, onehot_getLsbD_iff c k _ hk] at hp hq
  rw [hp, hq]

theorem lastDigit_lt (s : State) : lastDigit s < s.cfg.ndigits := Nat.mod_lt _ (ndigits_pos s.cfg)

/-- The snapshot that a SCAN from a state with the invariant takes. -/
theorem exists_takeSnapshot_of_inv (s : State) (h : s.Inv) :
    ∃ sn, takeSnapshot s = some sn ∧ sn.k = s.idx ∧ sn.k < s.cfg.ndigits :=
  ⟨_, takeSnapshot_of_slot s (idx_lt_length_of_inv s h), rfl, idx_lt_ndigits_of_inv s h⟩

/-- Settles O50: the old digit alone, then none, then the new digit alone. -/
theorem atMostOneDigitOnAtEveryInstant : Obligations.AtMostOneDigitOnAtEveryInstant := by
  intro s hinv t ht p q hp hq
  obtain ⟨sn, hsn, -, hk⟩ := exists_takeSnapshot_of_inv s hinv
  rw [scanInstants_eq s sn hsn] at ht
  rcases List.mem_append.mp ht with ht | hafter
  · rcases List.mem_append.mp ht with hbefore | hdark
    · obtain ⟨-, -, -, hone, -⟩ := hinv
      have hsame := sameDisplay_of_mem_before sn s t hbefore
      refine digitOn_unique s.cfg (lastDigit s) (lastDigit_lt s) t (fun hsink => ?_) p q hp hq
      rw [hsame.digLatch, hone (hsame.sinkEn ▸ hsink)]
    · rw [digitOn_of_sink_off t p (sinkEn_of_mem_dark sn s t hdark)] at hp
      cases hp
  · obtain ⟨-, hlatch, -, -⟩ := shows_of_mem_after sn s t hk hafter
    have hcfg : t.cfg = s.cfg := by
      rcases List.mem_pair.mp hafter with rfl | rfl <;> exact runMicro_cfg _ (acknowledge s)
    exact digitOn_unique t.cfg sn.k (hcfg ▸ hk) t (fun _ => hlatch) p q hp hq

/-- What a turn other than a Reset or a performed SCAN leaves: the display, the index and a pending tick. -/
structure Steady (s t : State) : Prop extends SameDisplay s t where
  /-- The configuration. -/
  cfg : t.cfg = s.cfg
  /-- The digit to be scanned next. -/
  idx : t.idx = s.idx
  /-- No tick is lost but by a SCAN. -/
  tickPending : s.tickPending = true → t.tickPending = true

theorem steady_effect (i : Instr) (s : State) (h : s.fault = none) : Steady s (i.effect s) := by
  obtain ⟨⟨hidx, htick, -, hseg, -, hdig, -, hsink, hline, hcfg, -⟩, -⟩ :=
    commandsFollowTheAccessMatrix i s _ (exec_running i s h)
  exact { sinkEn := hsink, digLatch := hdig, segLatch := hseg, dpLineN := hline, cfg := hcfg, idx := hidx,
          tickPending := fun hs => htick.trans hs }

/-- What a turn does to the display: Reset, a SCAN, or nothing. -/
theorem turnStep_display_cases (u : Turn) (s t : State) (h : turnStep u s = .next t) :
    (u = .reset ∧ t = resetStep s) ∨ (u = .scan ∧ s.scanEnabled = true ∧ scanStep s = .next t) ∨
      (u ≠ .reset ∧ (u = .scan → s.scanEnabled = false) ∧ Steady s t) := by
  rcases turnStep_next_cases u s t h with ⟨hdisabled, rfl⟩ | ⟨w, i, rfl, hfault, -, hexec⟩ | ⟨w, rfl, -, -, rfl⟩ |
    ⟨rfl, -, rfl⟩ | ⟨rfl, henabled, hscan⟩ | ⟨rfl, rfl⟩
  · refine .inr (.inr ⟨?_, ?_, ⟨rfl, rfl, rfl, rfl⟩, rfl, rfl, id⟩)
    · rintro rfl
      cases hdisabled
    · rintro rfl
      exact hdisabled
  · obtain ⟨-, rfl⟩ := (exec_next_iff i s t).mp hexec
    exact .inr (.inr ⟨Turn.noConfusion, Turn.noConfusion, steady_effect i s hfault⟩)
  · exact .inr (.inr ⟨Turn.noConfusion, Turn.noConfusion, ⟨rfl, rfl, rfl, rfl⟩, rfl, rfl, id⟩)
  · exact .inr (.inr ⟨Turn.noConfusion, Turn.noConfusion, ⟨rfl, rfl, rfl, rfl⟩, rfl, rfl, fun _ => rfl⟩)
  · exact .inr (.inl ⟨rfl, henabled, hscan⟩)
  · exact .inl ⟨rfl, rfl⟩

-- ## Idle outputs

/-- The word of ENOUT is the only one that decodes to it. -/
theorem enout_word_of_decode (w : CommandWord) (h : decode w = .command .enout) : w = 0x70000000#32 :=
  (decodedWordIsTheOnlyEncoding w .enout h).symm

theorem effect_enables (i : Instr) (s : State) (h : s.fault = none) (hi : i ≠ .enout) :
    (i.effect s).oeDig = s.oeDig ∧ (i.effect s).oeSeg = s.oeSeg := by
  obtain ⟨-, -, -, -, -, -, henables, -⟩ := commandsFollowTheAccessMatrix i s _ (exec_running i s h)
  refine henables fun hmnemonic => hi ?_
  cases i with
  | enout => rfl
  | map | wrseg | wrdp | setbrt | setflags | setsep => cases hmnemonic

/-- Only ENOUT and Reset write the output enables (10_state.md R38). -/
theorem turnStep_enables (u : Turn) (s t : State) (h : turnStep u s = .next t) (hreset : u ≠ .reset)
    (henout : u ≠ .command 0x70000000#32) : t.oeDig = s.oeDig ∧ t.oeSeg = s.oeSeg := by
  rcases turnStep_next_cases u s t h with ⟨-, rfl⟩ | ⟨w, i, rfl, hfault, hdecode, hexec⟩ | ⟨w, -, -, -, rfl⟩ |
    ⟨-, -, rfl⟩ | ⟨-, -, hscan⟩ | ⟨rfl, -⟩
  · exact ⟨rfl, rfl⟩
  · obtain ⟨-, rfl⟩ := (exec_next_iff i s t).mp hexec
    refine effect_enables i s hfault fun hi => henout (congrArg Turn.command (enout_word_of_decode w ?_))
    rw [hdecode, hi]
  · exact ⟨rfl, rfl⟩
  · exact ⟨rfl, rfl⟩
  · obtain ⟨sn, -, rfl⟩ := (scanStep_next_iff s t).mp hscan
    exact ⟨runMicro_keeps State.oeDig _ (fun o _ => microStep_oeDig o) _,
      runMicro_keeps State.oeSeg _ (fun o _ => microStep_oeSeg o) _⟩
  · exact absurd rfl hreset

/-- The output functions (R131) read the display, the enables and the configuration. -/
theorem SameDisplay.sameOutputs {s t : State} (h : SameDisplay s t) (hcfg : t.cfg = s.cfg) (hdig : t.oeDig = s.oeDig)
    (hseg : t.oeSeg = s.oeSeg) : SameOutputs s t := by
  have hon (p : Nat) : digitOn t p = digitOn s p := by
    rw [digitOn, digitOn, hcfg, hdig, h.sinkEn, h.digLatch]
  have hdriven (b : Fin 16) : segDriven t b = segDriven s b := by
    rw [segDriven, segDriven, hseg, h.segLatch]
  have hlit (p : Nat) (b : Fin 16) : lit t p b = lit s p b := by
    rw [lit, lit, hon, hdriven]
  refine ⟨hon, hdriven, hlit, fun p => ?_, fun p => ?_⟩
  · rw [dpLit, dpLit, hon, h.dpLineN]
  · simp only [shownMask, hlit, hcfg]

/-- Settles O49: without a tick the turn is no SCAN, so it leaves the display, and of the rest only ENOUT writes an
enable. -/
theorem idleOutputsHold : Obligations.IdleOutputsHold := by
  intro s t htick hstep hreset henout
  have hpasses := turnStep_disabled .scan s (scanEnabled_of_no_tick s htick)
  refine ⟨hpasses, ?_⟩
  rw [step_eq_turnStep] at hstep
  have hreset' : s.schedule.headD .scan ≠ .reset := fun h => hreset (head?_of_headD _ _ Turn.noConfusion h)
  have henout' : s.schedule.headD .scan ≠ .command 0x70000000#32 :=
    fun h => henout (head?_of_headD _ _ Turn.noConfusion h)
  obtain ⟨hdig, hseg⟩ := turnStep_enables _ _ t hstep hreset' henout'
  rcases turnStep_display_cases _ _ t hstep with ⟨h, -⟩ | ⟨-, henabled, -⟩ | ⟨-, -, hsteady⟩
  · exact absurd h hreset'
  · exact absurd (((scanEnabled_iff _).mp henabled).1.symm.trans htick) Bool.noConfusion
  · exact ⟨hsteady.toSameDisplay.sameOutputs hsteady.cfg hdig hseg, hsteady.segLatch, hsteady.digLatch⟩

-- ## The snapshot shown

/-- What a run knows of the last snapshot: none since the last Reset, and the sink is off, or one, and the state shows
it as its last digit. -/
def Tracks (s : State) : Option Snapshot → Prop
  | none => s.sinkEn = false
  | some sn => s.sinkEn = true ∧ Shows s sn ∧ sn.k = lastDigit s

theorem shownAfter_of_reset (s : State) (g : Option Snapshot) (h : s.schedule.headD .scan = .reset) :
    shownAfter s g = none := by
  cases hs : s.schedule with
  | nil => rw [hs] at h; cases h
  | cons u rest =>
    rw [hs] at h
    obtain rfl : u = .reset := h
    rw [shownAfter, hs]

theorem shownAfter_of_scan (s : State) (g : Option Snapshot) (h : s.schedule.headD .scan = .scan) :
    shownAfter s g = (if s.scanEnabled then takeSnapshot s else none).or g := by
  cases hs : s.schedule with
  | nil => rw [shownAfter, scannedBy, hs]
  | cons u rest =>
    rw [hs] at h
    obtain rfl : u = .scan := h
    rw [shownAfter, scannedBy, hs]

theorem shownAfter_of_other (s : State) (g : Option Snapshot) (hreset : s.schedule.headD .scan ≠ .reset)
    (hscan : s.schedule.headD .scan ≠ .scan) : shownAfter s g = g := by
  cases hs : s.schedule with
  | nil => rw [hs] at hscan; exact absurd rfl hscan
  | cons u rest =>
    rw [hs] at hreset hscan
    cases u with
    | reset => exact absurd rfl hreset
    | scan => exact absurd rfl hscan
    | command | tick => rw [shownAfter, scannedBy, hs]; exact Option.none_or

/-- Nothing is forgotten or shown anew but by Reset and by an enabled SCAN. -/
theorem shownAfter_of_steady (s : State) (g : Option Snapshot) (hreset : s.schedule.headD .scan ≠ .reset)
    (hscan : s.schedule.headD .scan = .scan → s.scanEnabled = false) : shownAfter s g = g := by
  by_cases h : s.schedule.headD .scan = .scan
  · rw [shownAfter_of_scan s g h, hscan h]
    exact Option.none_or
  · exact shownAfter_of_other s g hreset h

theorem Tracks.of_steady {s t : State} (h : Steady s t) (g : Option Snapshot) (htracks : Tracks s g) : Tracks t g := by
  cases g with
  | none => exact h.sinkEn.trans htracks
  | some sn =>
    obtain ⟨hsink, ⟨hdig, hseg, hline⟩, hk⟩ := htracks
    refine ⟨h.sinkEn.trans hsink, ⟨?_, h.segLatch.trans hseg, h.dpLineN.trans hline⟩, ?_⟩
    · rw [h.digLatch, hdig, h.cfg]
    · rw [hk, lastDigit, lastDigit, h.idx, h.cfg]

/-- A step keeps track of the snapshot shown. -/
theorem tracks_step (s t : State) (g : Option Snapshot) (hinv : s.Inv) (htracks : Tracks s g)
    (hstep : step s = .next t) : Tracks t (shownAfter s g) := by
  rw [step_eq_turnStep] at hstep
  rcases turnStep_display_cases _ _ t hstep with ⟨hreset, rfl⟩ | ⟨hscan, henabled, hend⟩ | ⟨hreset, hscan, hsteady⟩
  · rw [shownAfter_of_reset s g hreset]
    rfl
  · rw [scanStep_of_inv _ (inv_withSchedule s hinv _)] at hend
    cases hend
    rw [shownAfter_of_scan s g hscan, if_pos (show s.scanEnabled = true from henabled),
      takeSnapshot_of_slot s (idx_lt_length_of_inv s hinv)]
    exact ⟨rfl, ⟨rfl, rfl, rfl⟩, (lastDigit_afterScan s (idx_lt_ndigits_of_inv s hinv)).symm⟩
  · rw [shownAfter_of_steady s g hreset hscan]
    exact Tracks.of_steady ⟨⟨hsteady.sinkEn, hsteady.digLatch, hsteady.segLatch, hsteady.dpLineN⟩, hsteady.cfg,
      hsteady.idx, hsteady.tickPending⟩ g htracks

/-- Every state of every run has the invariant and shows the snapshot tracked. -/
theorem inv_and_tracks_of_reachable (s : State) (g : Option Snapshot) (h : Reachable s g) : s.Inv ∧ Tracks s g := by
  induction h with
  | start c d schedule n => exact ⟨inv_afterReset c d schedule n, rfl⟩
  | more s t g _ hstep ih =>
    obtain ⟨hinv, htracks⟩ := ih
    exact ⟨stepKeepsTheInvariant s t hinv hstep, tracks_step s t g hinv htracks hstep⟩

theorem microTrace_ne_nil (os : List MicroOp) (s : State) : microTrace os s ≠ [] := by
  cases os <;> exact List.cons_ne_nil _ _

/-- Settles O51: the run's part by tracking the snapshot, the SCAN's by its three parts. -/
theorem noGhostFrame : Obligations.NoGhostFrame := by
  intro s g hreach
  obtain ⟨hinv, htracks⟩ := inv_and_tracks_of_reachable s g hreach
  obtain ⟨sn, hsn, -, hk⟩ := exists_takeSnapshot_of_inv s hinv
  refine ⟨fun hsink => ?_, sn, _, _, _, hsn, scanInstants_eq s sn hsn, List.cons_ne_nil _ _, microTrace_ne_nil _ _,
    List.cons_ne_nil _ _, fun t ht => ?_, fun t ht p => ?_, fun t ht => ?_⟩
  · cases g with
    | none => exact absurd (hsink.symm.trans htracks) Bool.noConfusion
    | some sn' =>
      obtain ⟨-, hshows, -⟩ := htracks
      exact ⟨sn', rfl, hshows⟩
  · obtain ⟨hsink, hdig, hseg, hline⟩ := sameDisplay_of_mem_before sn s t ht
    exact ⟨hsink, hdig, hseg, hline⟩
  · exact digitOn_of_sink_off t p (sinkEn_of_mem_dark sn s t ht)
  · exact shows_of_mem_after sn s t hk ht

/-- Settles O52, by tracking the snapshot. -/
theorem exactlyOneDigitOnBetweenUpdates : Obligations.ExactlyOneDigitOnBetweenUpdates := by
  intro s sn hreach hoe
  obtain ⟨-, hsink, ⟨hlatch, -, -⟩, hk⟩ := inv_and_tracks_of_reachable s (some sn) hreach
  exact ⟨hk, fun p => digitOn_iff_of_onehot s sn.k p (hk ▸ lastDigit_lt s) hoe hsink hlatch⟩

end Sys2Proof.Machine
end

section
/-!
Serviced ticks (42_scan_controller.md R148): a tick and its SCAN, any number of times, as an iterate of the SCAN's end
state; what a frame of them shows (20_memory.md R61); and fair runs (70_reset_and_hazards.md R212).
-/

namespace Sys2Proof.Machine

/-- A tick and the SCAN that services it, in a run. -/
theorem run_tick_scan (n : Nat) (rest : List Turn) (s : State) (hinv : s.Inv) (hfault : s.fault = none) :
    run (n + 1 + 1) { s with schedule := .tick :: .scan :: rest } = run n { afterScan s with schedule := rest } := by
  have htick : turnStep .tick { s with schedule := .scan :: rest } =
      .next { tickStep s with schedule := .scan :: rest } := turnStep_tick _ hfault
  have hscan : turnStep .scan { tickStep s with schedule := rest } = .next { afterScan s with schedule := rest } :=
    (turnStep_scan { tickStep s with schedule := rest } ((scanEnabled_iff _).mpr ⟨rfl, hfault⟩)).trans
      (scanStep_of_inv { tickStep s with schedule := rest } hinv)
  rw [run_succ_cons (n + 1) s _ .tick (.scan :: rest) htick]
  exact run_succ_cons n (tickStep s) _ .scan rest hscan

theorem run_servicedTicks (n : Nat) (s : State) (hinv : s.Inv) (hfault : s.fault = none) :
    run (2 * n) { s with schedule := servicedTicks n } = .next { afterScan^[n] s with schedule := [] } := by
  induction n generalizing s with
  | zero => rfl
  | succ n ih =>
    exact (run_tick_scan (2 * n) (servicedTicks n) s hinv hfault).trans (ih (afterScan s) (inv_afterScan s hinv) hfault)

/-- What SCAN leaves, any number of SCANs leave. -/
theorem iterate_afterScan_keeps {α : Type} (g : State → α) (h : ∀ s, g (afterScan s) = g s) (n : Nat) (s : State) :
    g (afterScan^[n] s) = g s := by
  induction n with
  | zero => rfl
  | succ n ih => rw [Function.iterate_succ_apply', h, ih]

theorem iterate_afterScan_cfg (n : Nat) (s : State) : (afterScan^[n] s).cfg = s.cfg :=
  iterate_afterScan_keeps State.cfg (fun _ => rfl) n s

/-- Each SCAN advances the index by one, modulo NDIGITS. -/
theorem iterate_afterScan_idx (n : Nat) (s : State) (h : s.idx < s.cfg.ndigits) :
    (afterScan^[n] s).idx = (s.idx + n) % s.cfg.ndigits := by
  induction n with
  | zero => exact (Nat.mod_eq_of_lt h).symm
  | succ n ih =>
    rw [Function.iterate_succ_apply', afterScan, ih, iterate_afterScan_cfg, Nat.mod_add_mod, Nat.add_assoc]

theorem iterate_afterScan_digLatch (n : Nat) (s : State) (h : s.idx < s.cfg.ndigits) :
    (afterScan^[n + 1] s).digLatch = onehot s.cfg.digitDepth ((s.idx + n) % s.cfg.ndigits) := by
  rw [Function.iterate_succ_apply', afterScan, iterate_afterScan_idx n s h, iterate_afterScan_cfg]

theorem onehot_inj (c : Config) (a b : Nat) (ha : a < c.ndigits) (hb : b < c.ndigits)
    (h : onehot c.digitDepth a = onehot c.digitDepth b) : a = b := by
  have hbit := (onehot_getLsbD_iff c a a ha).mpr rfl
  rwa [h, onehot_getLsbD_iff c b a hb] at hbit

/-- From any digit, each digit is reached by exactly one offset within a frame. -/
theorem exists_offset (n i k : Nat) (hi : i < n) (hk : k < n) :
    ∃ j, j < n ∧ ∀ j', j' < n → ((i + j') % n = k ↔ j' = j) := by
  have hmod (j : Nat) (hj : j < n) : (i + j) % n = if i + j < n then i + j else i + j - n := by
    split
    · exact Nat.mod_eq_of_lt ‹_›
    · rw [Nat.mod_eq_sub_mod (by omega), Nat.mod_eq_of_lt (by omega)]
  refine ⟨if i ≤ k then k - i else k + n - i, by split <;> omega, fun j' hj' => ?_⟩
  rw [hmod j' hj']
  split <;> split <;> omega

/-- Settles O53: the run is an iterate, and the index runs through the digits. -/
theorem everyFrameSelectsEachDigitOnce : Obligations.EveryFrameSelectsEachDigitOnce := by
  intro s k hinv hfault hk
  have hidx := idx_lt_ndigits_of_inv s hinv
  have hrun (j : Nat) := run_servicedTicks (j + 1) s hinv hfault
  refine ⟨fun j => ⟨_, hrun j, iterate_afterScan_digLatch j s hidx, iterate_afterScan_idx (j + 1) s hidx⟩, ?_⟩
  obtain ⟨j, hj, hoffset⟩ := exists_offset s.cfg.ndigits s.idx k hidx hk
  refine ⟨j, ⟨hj, _, hrun j, ?_⟩, fun j' ⟨hj', t, ht, hlatch⟩ => (hoffset j' hj').mp ?_⟩
  · rw [← (hoffset j hj).mpr rfl]
    exact iterate_afterScan_digLatch j s hidx
  · obtain rfl := Host.Outcome.next.inj ((hrun j').symm.trans ht)
    exact onehot_inj s.cfg _ k (Nat.mod_lt _ (ndigits_pos s.cfg)) hk
      ((iterate_afterScan_digLatch j' s hidx).symm.trans hlatch)

/-- After the SCAN of a digit whose slot holds a remapped mask, with the outputs enabled, the digit shows that mask and
its decimal point. -/
theorem shown_afterScan (s : State) (m : Word) (hinv : s.Inv) (hoe : s.oeDig = true)
    (hslot : bufRead s s.idx = some (toHardwareOrder s.cfg m)) :
    digitOn (afterScan s) s.idx = true ∧ shownMask (afterScan s) s.idx = m ∧
      dpLit (afterScan s) s.idx = dpRead s s.idx := by
  obtain ⟨-, hidx, -, -, -, henables, -⟩ := hinv
  have hon : digitOn (afterScan s) s.idx = true :=
    (digitOn_iff_of_onehot (afterScan s) s.idx s.idx hidx hoe rfl rfl).mpr rfl
  have hlatch : (afterScan s).segLatch = toHardwareOrder s.cfg m := by
    rw [afterScan, hslot, Option.getD_some]
  refine ⟨hon, BitVec.eq_of_getLsbD_eq fun i hi => ?_, ?_⟩
  · have hbit := toHardwareOrder_getLsbD_perm s.cfg m ⟨i, hi⟩
    refine (orBits_at (fun i => lit (afterScan s) s.idx s.cfg.perm[i]) id (fun _ _ h => h) ⟨i, hi⟩).trans ?_
    have hseg : (afterScan s).oeSeg = true := henables ▸ hoe
    simp only [lit, hon, segDriven, hseg, hlatch, hbit, Bool.true_and, Bool.not_not]
  · rw [dpLit, hon, Bool.true_and]
    exact Bool.not_not _

theorem inv_iterate_afterScan (n : Nat) (s : State) (h : s.Inv) : (afterScan^[n] s).Inv := by
  induction n with
  | zero => exact h
  | succ n ih => rw [Function.iterate_succ_apply']; exact inv_afterScan _ ih

/-- The mask in a slot is what its digit shows within the next frame. -/
theorem slot_shown_within_frame (k : Nat) (m : Word) (s : State) (hinv : s.Inv) (hfault : s.fault = none)
    (hk : k < s.cfg.ndigits) (hoe : s.oeDig = true) (hslot : bufRead s k = some (toHardwareOrder s.cfg m)) :
    ∃ n u, 1 ≤ n ∧ n ≤ s.cfg.ndigits ∧ run (2 * n) { s with schedule := servicedTicks n } = .next u ∧
      digitOn u k = true ∧ shownMask u k = m ∧ dpLit u k = dpRead s k := by
  have hidx := idx_lt_ndigits_of_inv s hinv
  obtain ⟨j, hj, hoffset⟩ := exists_offset s.cfg.ndigits s.idx k hidx hk
  have hdigit : (afterScan^[j] s).idx = k := (iterate_afterScan_idx j s hidx).trans ((hoffset j hj).mpr rfl)
  have hbuf : (afterScan^[j] s).buf = s.buf := iterate_afterScan_keeps State.buf (fun _ => rfl) j s
  have hdp : (afterScan^[j] s).dp = s.dp := iterate_afterScan_keeps State.dp (fun _ => rfl) j s
  have hoe' : (afterScan^[j] s).oeDig = true := (iterate_afterScan_keeps State.oeDig (fun _ => rfl) j s).trans hoe
  have hshown := shown_afterScan (afterScan^[j] s) m (inv_iterate_afterScan j s hinv) hoe'
    (by rw [hdigit, iterate_afterScan_cfg, bufRead, hbuf]; exact hslot)
  rw [hdigit, dpRead, hdp, ← Function.iterate_succ_apply' afterScan] at hshown
  exact ⟨j + 1, _, Nat.succ_pos j, hj, run_servicedTicks (j + 1) s hinv hfault, hshown⟩

/-- Settles O55: WRSEG fills the slot, and writes nothing that the outputs read. -/
theorem writtenMaskIsShownWithinAFrame : Obligations.WrittenMaskIsShownWithinAFrame := by
  intro k m s hinv hfault hk hoe
  have hinv' := inv_effect (.wrseg k m) s hinv hfault
  refine ⟨_, exec_running (.wrseg k m) s hfault, ?_⟩
  obtain ⟨⟨hlen, -⟩, -⟩ := hinv
  rw [effect_wrseg_below k m s hk] at hinv' ⊢
  exact ⟨⟨fun _ => rfl, fun _ => rfl, fun _ _ => rfl, fun _ => rfl, fun _ => rfl⟩,
    slot_shown_within_frame k.val m _ hinv' hfault hk hoe (bufRead_bufWrite_same s k.val _ (hlen ▸ hk))⟩

-- ## Fair runs

section FairRuns

variable {f : Nat → Turn} {σ : Nat → State}

/-- Turn `n` of a run is a SCAN that is performed. -/
def Scans (f : Nat → Turn) (σ : Nat → State) (n : Nat) : Prop := f n = .scan ∧ (σ n).scanEnabled = true

theorem FairRun.inv (hrun : FairRun f σ) (hinv : (σ 0).Inv) (n : Nat) : (σ n).Inv := by
  induction n with
  | zero => exact hinv
  | succ n ih => exact turnStep_keeps_inv _ _ _ ih (hrun.steps n)

theorem FairRun.cfg (hrun : FairRun f σ) (n : Nat) : (σ n).cfg = (σ 0).cfg := by
  induction n with
  | zero => rfl
  | succ n ih => exact (turnStep_cfg _ _ _ (hrun.steps n)).trans ih

theorem FairRun.afterScan (hrun : FairRun f σ) (hinv : (σ 0).Inv) (n : Nat) (h : Scans f σ n) :
    σ (n + 1) = Machine.afterScan (σ n) := by
  obtain ⟨hturn, henabled⟩ := h
  have hstep := hrun.steps n
  rw [hturn, turnStep_scan _ henabled, scanStep_of_inv _ (hrun.inv hinv n)] at hstep
  exact (Host.Outcome.next.inj hstep).symm

theorem FairRun.steady (hrun : FairRun f σ) (n : Nat) (h : ¬ Scans f σ n) : Steady (σ n) (σ (n + 1)) := by
  rcases turnStep_display_cases _ _ _ (hrun.steps n) with ⟨hreset, -⟩ | ⟨hturn, henabled, -⟩ | ⟨-, -, hsteady⟩
  · exact absurd hreset (hrun.noReset n)
  · exact absurd ⟨hturn, henabled⟩ h
  · exact hsteady

/-- While no SCAN is performed, the index stays, and a pending tick too. -/
theorem FairRun.idx_and_tick (hrun : FairRun f σ) (n d : Nat) (h : ∀ m, n ≤ m → m < n + d → ¬ Scans f σ m) :
    (σ (n + d)).idx = (σ n).idx ∧ ((σ n).tickPending = true → (σ (n + d)).tickPending = true) := by
  induction d with
  | zero => exact ⟨rfl, id⟩
  | succ d ih =>
    obtain ⟨hidx, htick⟩ := ih fun m hn hm => h m hn (by omega)
    have hsteady := hrun.steady (n + d) (h (n + d) (by omega) (by omega))
    exact ⟨hsteady.idx.trans hidx, fun hn => hsteady.tickPending (htick hn)⟩

/-- After any point a SCAN is performed: a tick comes, it stays pending, and the enabled SCAN is taken in the end. -/
theorem FairRun.exists_scans (hrun : FairRun f σ) (n : Nat) : ∃ m, n ≤ m ∧ Scans f σ m := by
  by_contra hnone
  have hno (m : Nat) (hm : n ≤ m) : ¬ Scans f σ m := fun h => hnone ⟨m, hm, h⟩
  obtain ⟨a, hna, hturn⟩ := hrun.ticks n
  have htick : (σ (a + 1)).tickPending = true := by
    have hstep := hrun.steps a
    rw [hturn, turnStep_tick _ (hrun.running a)] at hstep
    rw [← Host.Outcome.next.inj hstep, tickStep_tickPending]
  obtain ⟨m, ham, hscan⟩ := hrun.scans (a + 1)
  obtain ⟨d, rfl⟩ := Nat.exists_eq_add_of_le ham
  obtain ⟨-, hstays⟩ := hrun.idx_and_tick (a + 1) d fun m' hm' _ => hno m' (by omega)
  have henabled : (σ (a + 1 + d)).scanEnabled = true := (scanEnabled_iff _).mpr ⟨hstays htick, hrun.running _⟩
  rcases hscan with hscan | hdisabled
  · exact hno (a + 1 + d) (by omega) ⟨hscan, henabled⟩
  · exact absurd (henabled.symm.trans hdisabled) Bool.noConfusion

/-- The next SCAN after any point is of the digit that was next there. -/
theorem FairRun.exists_scans_idx (hrun : FairRun f σ) (n : Nat) :
    ∃ m, n ≤ m ∧ Scans f σ m ∧ (σ m).idx = (σ n).idx := by
  classical
  have hexists := hrun.exists_scans n
  obtain ⟨hle, hscans⟩ := Nat.find_spec hexists
  obtain ⟨d, hd⟩ := Nat.exists_eq_add_of_le hle
  refine ⟨_, hle, hscans, ?_⟩
  rw [hd]
  refine (hrun.idx_and_tick n d fun m hm hlt hs => ?_).1
  exact Nat.find_min hexists (hd ▸ hlt) ⟨hm, hs⟩

/-- Every later digit has its turn: the `j`-th after the one that is next. -/
theorem FairRun.exists_scans_offset (hrun : FairRun f σ) (hinv : (σ 0).Inv) (j n : Nat) :
    ∃ m, n ≤ m ∧ Scans f σ m ∧ (σ m).idx = ((σ n).idx + j) % (σ 0).cfg.ndigits := by
  induction j with
  | zero =>
    obtain ⟨m, hm, hscans, hidx⟩ := hrun.exists_scans_idx n
    refine ⟨m, hm, hscans, hidx.trans (Nat.mod_eq_of_lt ?_).symm⟩
    rw [← hrun.cfg n]
    exact idx_lt_ndigits_of_inv _ (hrun.inv hinv n)
  | succ j ih =>
    obtain ⟨m, hm, hscans, hidx⟩ := ih
    obtain ⟨m', hm', hscans', hidx'⟩ := hrun.exists_scans_idx (m + 1)
    refine ⟨m', by omega, hscans', ?_⟩
    rw [hidx', hrun.afterScan hinv m hscans, Machine.afterScan, hidx, hrun.cfg m, Nat.mod_add_mod, Nat.add_assoc]

end FairRuns

/-- Settles O54: digit `k` is some number of SCANs away from any point. -/
theorem fairRunsSelectEveryDigitForever : Obligations.FairRunsSelectEveryDigitForever := by
  intro f σ k n hrun hinv hk
  have hidx := idx_lt_ndigits_of_inv _ (hrun.inv hinv n)
  rw [hrun.cfg n] at hidx
  obtain ⟨j, hj, hoffset⟩ := exists_offset (σ 0).cfg.ndigits (σ n).idx k hidx hk
  obtain ⟨m, hm, hscans, hdigit⟩ := hrun.exists_scans_offset hinv j n
  rw [(hoffset j hj).mpr rfl] at hdigit
  obtain ⟨hturn, henabled⟩ := hscans
  refine ⟨m, hm, hturn, henabled, hdigit, ?_⟩
  rw [hrun.afterScan hinv m ⟨hturn, henabled⟩, afterScan, hdigit, hrun.cfg m]

end Sys2Proof.Machine
end

section
/-!
The pseudo-operations (30_encoding.md section 6) run as command words: a program of commands with their indices in
range is the composition of their effects, and the buffer after POPULATE and CLRBUF is read off slot by slot.
-/

namespace Sys2Proof.Machine

/-- The effects of a program, in order. -/
def programEffect (program : List Instr) (s : State) : State := program.foldl (fun s i => i.effect s) s

theorem programEffect_cons (i : Instr) (program : List Instr) (s : State) :
    programEffect (i :: program) s = programEffect program (i.effect s) := rfl

theorem programEffect_append (p q : List Instr) (s : State) :
    programEffect (p ++ q) s = programEffect q (programEffect p s) := List.foldl_append

/-- What each effect of a program keeps, the program keeps. -/
theorem programEffect_keeps {α : Type} (g : State → α) (program : List Instr)
    (h : ∀ i ∈ program, ∀ s, g (i.effect s) = g s) (s : State) : g (programEffect program s) = g s := by
  induction program generalizing s with
  | nil => rfl
  | cons i program ih =>
    obtain ⟨hi, hprogram⟩ := List.forall_mem_cons.mp h
    rw [programEffect_cons, ih hprogram, hi]

/-- The schedule is neither read nor written by a command. -/
theorem effect_withSchedule (i : Instr) (s : State) (l : List Turn) :
    i.effect { s with schedule := l } = { i.effect s with schedule := l } := by
  cases i with
  | wrseg | wrdp =>
    simp only [Instr.effect, withIndex]
    split <;> rfl
  | map | setbrt | setflags | setsep | enout => rfl

/-- A program whose indices are all in range runs to the end without a fault. -/
theorem run_hostTurns (program : List Instr) (s : State) (hfault : s.fault = none)
    (hbelow : ∀ i ∈ program, i.indexBelow s.cfg.ndigits) :
    run program.length { s with schedule := hostTurns program } =
        .next { programEffect program s with schedule := [] } ∧
      (programEffect program s).fault = none := by
  induction program generalizing s with
  | nil => exact ⟨rfl, hfault⟩
  | cons i program ih =>
    obtain ⟨hi, hprogram⟩ := List.forall_mem_cons.mp hbelow
    have hfault' := (effect_fault_of_indexBelow i s hi).trans hfault
    have hturn := (turnStep_command (encode i) { s with schedule := hostTurns program } hfault).trans
      ((commandTurn_of_command _ i _ (decodeOfEncodeIsTheCommand i)).trans (exec_running i _ hfault))
    rw [effect_withSchedule] at hturn
    obtain ⟨hrun, hend⟩ := ih (i.effect s) hfault' (by rwa [effect_cfg i s])
    exact ⟨(run_succ_cons program.length s _ _ (hostTurns program) hturn).trans hrun, hend⟩

-- ## POPULATE

theorem ofNat_val_of_lt_ndigits (c : Config) (k : Nat) (h : k < c.ndigits) : (Fin.ofNat 16 k).val = k :=
  Nat.mod_eq_of_lt (Nat.lt_of_lt_of_le h (ndigits_le c))

/-- The commands of POPULATE write slots from `k` on, as many as there is room for. -/
theorem mem_populateFrom (font : Char → Word) (terminator : Char) (room k : Nat) (text : List Char) (i : Instr)
    (h : i ∈ populateFrom font terminator room k text) :
    ∃ j m, k ≤ j ∧ j < k + room ∧ i = .wrseg (Fin.ofNat 16 j) m := by
  induction room generalizing k text with
  | zero => cases text <;> cases h
  | succ room ih =>
    cases text with
    | nil => cases h
    | cons ch rest =>
      rw [populateFrom] at h
      split at h
      · cases h
      · rcases List.mem_cons.mp h with rfl | h
        · exact ⟨k, _, Nat.le_refl k, by omega, rfl⟩
        · obtain ⟨j, m, hkj, hj, rfl⟩ := ih (k + 1) rest h
          exact ⟨j, m, by omega, by omega, rfl⟩

theorem indexBelow_of_mem_populate (c : Config) (font : Char → Word) (terminator : Char) (text : List Char) (i : Instr)
    (h : i ∈ populate c font terminator text) : i.indexBelow c.ndigits := by
  obtain ⟨j, m, -, hj, rfl⟩ := mem_populateFrom font terminator c.ndigits 0 text i h
  rw [Nat.zero_add] at hj
  exact (ofNat_val_of_lt_ndigits c j hj).trans_lt hj

/-- The effect of a WRSEG at a slot given as a number below NDIGITS. -/
theorem effect_wrseg_ofNat (k : Nat) (m : Word) (s : State) (hk : k < s.cfg.ndigits) :
    (Instr.wrseg (Fin.ofNat 16 k) m).effect s = respondNone (bufWrite s k (toHardwareOrder s.cfg m)) := by
  have hval := ofNat_val_of_lt_ndigits s.cfg k hk
  rw [effect_wrseg_below _ m s (hval.trans_lt hk), hval]

/-- POPULATE from slot `k` on leaves the slots before it. -/
theorem bufRead_populateFrom_before (font : Char → Word) (terminator : Char) (room k : Nat) (text : List Char)
    (s : State) (hroom : k + room ≤ s.cfg.ndigits) (j : Nat) (hj : j < k) :
    bufRead (programEffect (populateFrom font terminator room k text) s) j = bufRead s j := by
  induction room generalizing k text s with
  | zero => cases text <;> rfl
  | succ room ih =>
    cases text with
    | nil => rfl
    | cons ch rest =>
      rw [populateFrom]
      split
      · rfl
      · rw [programEffect_cons, effect_wrseg_ofNat k (font ch) s (by omega)]
        refine (ih (k + 1) rest (respondNone (bufWrite s k (toHardwareOrder s.cfg (font ch))))
          (show k + 1 + room ≤ s.cfg.ndigits by omega) (by omega)).trans ?_
        exact bufRead_bufWrite_other s k j _ (by omega)

/-- POPULATE from slot `k` on puts the text's `d`-th character before the terminator, if any, in slot `k + d`. -/
theorem bufRead_populateFrom (font : Char → Word) (terminator : Char) (room k : Nat) (text : List Char) (s : State)
    (hlen : s.buf.length = s.cfg.ndigits) (hroom : k + room ≤ s.cfg.ndigits) (d : Nat) (hd : d < room) :
    bufRead (programEffect (populateFrom font terminator room k text) s) (k + d) =
      (((text.takeWhile fun ch => ch != terminator)[d]?).map fun ch => toHardwareOrder s.cfg (font ch)).or
        (bufRead s (k + d)) := by
  induction room generalizing k text s d with
  | zero => exact absurd hd (Nat.not_lt_zero d)
  | succ room ih =>
    cases text with
    | nil => rfl
    | cons ch rest =>
      rw [populateFrom]
      split
      · next h => simp [h, programEffect]
      · next h =>
        rw [List.takeWhile_cons_of_pos (by simpa using h), programEffect_cons,
          effect_wrseg_ofNat k (font ch) s (by omega)]
        have hroom' : k + 1 + room ≤ s.cfg.ndigits := by omega
        have hlen' : (bufWrite s k (toHardwareOrder s.cfg (font ch))).buf.length = s.cfg.ndigits :=
          List.length_set.trans hlen
        cases d with
        | zero =>
          refine (bufRead_populateFrom_before font terminator room (k + 1) rest
            (respondNone (bufWrite s k (toHardwareOrder s.cfg (font ch)))) hroom' k (Nat.lt_succ_self k)).trans ?_
          exact bufRead_bufWrite_same s k _ (by omega)
        | succ d =>
          rw [show k + (d + 1) = k + 1 + d by omega]
          refine (ih (k + 1) rest (respondNone (bufWrite s k (toHardwareOrder s.cfg (font ch)))) hlen' hroom' d
            (by omega)).trans ?_
          exact congrArg (Option.or _) (bufRead_bufWrite_other s k (k + 1 + d) _ (by omega))

theorem effect_wrseg_dp (k : Fin 16) (m : Word) (s : State) : ((Instr.wrseg k m).effect s).dp = s.dp := by
  simp only [Instr.effect, withIndex]
  split <;> rfl

/-- Settles O57: the program runs to its end, and its writes are read off slot by slot. -/
theorem populateFillsTheBuffer : Obligations.PopulateFillsTheBuffer := by
  intro c d n font terminator text
  obtain ⟨hrun, hfault⟩ := run_hostTurns (populate c font terminator text) (State.afterReset c d [] n) rfl
    (indexBelow_of_mem_populate c font terminator text)
  refine ⟨_, hrun, fun j hj => ?_, ?_, hfault⟩
  · have hread := bufRead_populateFrom font terminator c.ndigits 0 text (State.afterReset c d [] n)
      List.length_replicate (Nat.zero_add _).le j hj
    have hoff : bufRead (State.afterReset c d [] n) (0 + j) = some 0xFFFF#16 := by
      rw [Nat.zero_add]
      exact List.getElem?_replicate_of_lt hj
    rw [hoff, Nat.zero_add] at hread
    refine hread.trans ?_
    cases (text.takeWhile fun ch => ch != terminator)[j]? <;> rfl
  · refine programEffect_keeps State.dp _ (fun i hi s => ?_) (State.afterReset c d [] n)
    obtain ⟨j, m, -, -, rfl⟩ := mem_populateFrom font terminator c.ndigits 0 text i hi
    exact effect_wrseg_dp _ m s

-- ## CLRBUF

theorem effect_wrdp_buf (k : Fin 16) (v : Bool) (s : State) : ((Instr.wrdp k v).effect s).buf = s.buf := by
  simp only [Instr.effect, withIndex]
  split <;> rfl

/-- The effect of a WRDP at a slot given as a number below NDIGITS. -/
theorem effect_wrdp_ofNat (k : Nat) (v : Bool) (s : State) (hk : k < s.cfg.ndigits) :
    (Instr.wrdp (Fin.ofNat 16 k) v).effect s = respondNone (dpWrite s k v) := by
  have hval := ofNat_val_of_lt_ndigits s.cfg k hk
  rw [effect_wrdp_below _ v s (hval.trans_lt hk), hval]

/-- CLRSEG of each listed slot: these read as all off, the others as before. -/
theorem bufRead_clrsegs (ks : List Nat) (s : State) (hlen : s.buf.length = s.cfg.ndigits)
    (hks : ∀ k ∈ ks, k < s.cfg.ndigits) (j : Nat) :
    bufRead (programEffect (ks.map fun k => clrseg (Fin.ofNat 16 k)) s) j =
      if j ∈ ks then some 0xFFFF#16 else bufRead s j := by
  induction ks generalizing s with
  | nil => rfl
  | cons k ks ih =>
    obtain ⟨hk, hks⟩ := List.forall_mem_cons.mp hks
    rw [List.map_cons, programEffect_cons, clrseg, effect_wrseg_ofNat k 0 s hk]
    refine (ih (respondNone (bufWrite s k (toHardwareOrder s.cfg 0))) (List.length_set.trans hlen) hks).trans ?_
    by_cases hj : j = k
    · subst hj
      have hsame : bufRead (bufWrite s j (toHardwareOrder s.cfg 0)) j = some 0xFFFF#16 :=
        (bufRead_bufWrite_same s j _ (hlen ▸ hk)).trans (congrArg some (toHardwareOrder_zero s.cfg))
      rw [if_pos (List.mem_cons_self)]
      split
      · rfl
      · exact hsame
    · simp only [List.mem_cons, hj, false_or]
      exact if_congr Iff.rfl rfl (bufRead_bufWrite_other s k j _ hj)

/-- WRDP of 0 to each listed bit: these read as 0, the others as before. -/
theorem dpRead_clears (ks : List Nat) (s : State) (hks : ∀ k ∈ ks, k < s.cfg.ndigits) (j : Nat) :
    dpRead (programEffect (ks.map fun k => .wrdp (Fin.ofNat 16 k) false) s) j =
      if j ∈ ks then false else dpRead s j := by
  induction ks generalizing s with
  | nil => rfl
  | cons k ks ih =>
    obtain ⟨hk, hks⟩ := List.forall_mem_cons.mp hks
    rw [List.map_cons, programEffect_cons, effect_wrdp_ofNat k false s hk]
    refine (ih (respondNone (dpWrite s k false)) hks).trans ?_
    have hread := dpRead_dpWrite s k j false (Nat.lt_of_lt_of_le hk (ndigits_le s.cfg))
    by_cases hj : j = k
    · rw [if_pos (List.mem_cons.mpr (.inl hj))]
      split
      · rfl
      · exact hread.trans (if_pos hj)
    · simp only [List.mem_cons, hj, false_or]
      exact if_congr Iff.rfl rfl (hread.trans (if_neg hj))

theorem clrbuf_length (c : Config) : (clrbuf c).length = 2 * c.ndigits := by
  rw [clrbuf, List.length_append, List.length_map, List.length_map, List.length_range, Nat.two_mul]

theorem indexBelow_of_mem_clrbuf (c : Config) (i : Instr) (h : i ∈ clrbuf c) : i.indexBelow c.ndigits := by
  rcases List.mem_append.mp h with h | h <;>
    obtain ⟨k, hk, rfl⟩ := List.mem_map.mp h <;>
    exact (ofNat_val_of_lt_ndigits c k (List.mem_range.mp hk)).trans_lt (List.mem_range.mp hk)

/-- CLRBUF leaves every slot all off: its second half writes none, and there is no slot beyond the cleared ones. -/
theorem buf_clrbuf (s : State) (hlen : s.buf.length = s.cfg.ndigits) :
    (programEffect (clrbuf s.cfg) s).buf = List.replicate s.cfg.ndigits 0xFFFF#16 := by
  rw [clrbuf, programEffect_append, programEffect_keeps State.buf _ fun i hi u => by
    obtain ⟨k, -, rfl⟩ := List.mem_map.mp hi
    exact effect_wrdp_buf _ false u]
  refine List.ext_getElem? fun j => (bufRead_clrsegs _ s hlen (fun k => List.mem_range.mp) j).trans ?_
  rw [List.getElem?_replicate]
  by_cases hj : j < s.cfg.ndigits
  · rw [if_pos (List.mem_range.mpr hj), if_pos hj]
  · rw [if_neg (hj ∘ List.mem_range.mp), if_neg hj]
    exact List.getElem?_eq_none (by omega)

/-- CLRBUF leaves every decimal-point bit 0: its first half writes none, and no bit beyond the cleared ones is set. -/
theorem dp_clrbuf (s : State) (hdp : s.dp.toNat < 2 ^ s.cfg.ndigits) : (programEffect (clrbuf s.cfg) s).dp = 0 := by
  have hclrseg : ∀ i ∈ (List.range s.cfg.ndigits).map fun k => clrseg (Fin.ofNat 16 k),
      ∀ u, (i.effect u).dp = u.dp := by
    intro i hi u
    obtain ⟨k, -, rfl⟩ := List.mem_map.mp hi
    exact effect_wrseg_dp _ 0 u
  have hcfg (program : List Instr) : (programEffect program s).cfg = s.cfg :=
    programEffect_keeps State.cfg program (fun i _ => effect_cfg i) s
  rw [clrbuf, programEffect_append]
  refine BitVec.eq_of_getLsbD_eq (y := 0#16) fun j _ => (dpRead_clears _ _ (fun k hk => ?_) j).trans ?_
  · rw [hcfg]
    exact List.mem_range.mp hk
  · rw [dpRead, programEffect_keeps State.dp _ hclrseg, BitVec.getLsbD_zero]
    split
    · rfl
    · next hj => exact (toNat_lt_two_pow_iff _ _ _).mp hdp j (Nat.le_of_not_lt (hj ∘ List.mem_range.mpr))

/-- Settles O58: the commands' indices are in range, so the program runs to its end and clears every slot and bit. -/
theorem clrbufRestoresTheResetBuffer : Obligations.ClrbufRestoresTheResetBuffer := by
  intro s hinv hfault hschedule
  obtain ⟨⟨hlen, hdp⟩, -⟩ := hinv
  obtain ⟨hrun, hend⟩ := run_hostTurns (clrbuf s.cfg) s hfault (indexBelow_of_mem_clrbuf s.cfg)
  rw [← hschedule, clrbuf_length] at hrun
  exact ⟨clrbuf_length s.cfg, _, hrun, buf_clrbuf s hlen, dp_clrbuf s hdp, hend⟩

end Sys2Proof.Machine
end
